-- ==== Sys2Proof/Word.lean ====
section
/-! DEFINITION. The word types of the 4120: bytes of tables and frames, 16-bit checksums, common time. -/

namespace Sys2Proof

/-- A byte of a table, of a frame or of the setup port (11. Frame and Entry Formats). -/
abbrev Byte := BitVec 8

/-- A checksum or the backoff register (R126, R193). -/
abbrev Word16 := BitVec 16

/-- A value of common time, a 32-bit count of milliseconds (R164). -/
abbrev Time := BitVec 32

end Sys2Proof
end

