-- ==== Sys2Proof/Syntax.lean ====
section
/-! DEFINITION. The commands of the 4120: one constructor for each row of spec/opcode_table.json,
with what the outside brings along as operands. -/

namespace Sys2Proof

/-- The two pulse lines (R20). -/
inductive PulseLine where
  | anemo
  | dust
  deriving DecidableEq, Repr

/-- A track id: origin station and sequence (Conventions, "Track ids"). -/
structure TrackId where
  origin : Nat
  seq : Nat
  deriving DecidableEq, Repr

/-- The commands. Each docstring names the row and the rule that gives the step. -/
inductive Instr where
  /-- POWER_ON (R176): the levels of SN0–SN4, SUPPR and ACK as supply is applied. -/
  | powerOn (sn : BitVec 5) (suppr ack : Bool)
  /-- RST_ASSERT (R176). -/
  | rstAssert
  /-- LINE_RESET (R176): the levels of SN0–SN4, SUPPR and ACK as RST is released. -/
  | lineReset (sn : BitVec 5) (suppr ack : Bool)
  /-- SAMPLE_EVENT (R19): the levels of VANE3–VANE0 and LAMP at the end of the period. -/
  | sampleEvent (vane : BitVec 4) (lamp : Bool)
  /-- PULSE_EDGE (R20). -/
  | pulseEdge (line : PulseLine)
  /-- SUPPR_TRANSITION (R26, R27): the level that has held for 10 ms. -/
  | supprTransition (level : Bool)
  /-- ACK_TRANSITION (R26, R29): the level that has held for 10 ms. -/
  | ackTransition (level : Bool)
  /-- WINDOW_EXPIRY (R177). -/
  | windowExpiry
  /-- HOLD (R177). -/
  | hold
  /-- CLEAR_BUFFER (R180). -/
  | clearBuffer
  /-- COMMIT_PAGE (R181). -/
  | commitPage
  /-- COMMIT_COMPLETE (R181). -/
  | commitComplete
  /-- START (R182). -/
  | start
  /-- STORE_PAGE_DONE (R183): the bytes read back from the stored page. -/
  | storePageDone (readBack : List Byte)
  /-- STORE_HEADER_DONE (R183): the valid mark and checksum read back from the header. -/
  | storeHeaderDone (valid : Bool) (checksum : Word16)
  /-- RESTART (R185). -/
  | restart
  /-- CLEAR_FAULTS (R188). -/
  | clearFaults
  /-- CHANNEL_OUT (R31, R186). -/
  | channelOut
  /-- CHANNEL_IN (R33, R34, R186). -/
  | channelIn
  /-- UNKNOWN_COMMAND (R179): the code written to COMMAND. -/
  | unknownCommand (code : Byte)
  /-- TABLE_SELECT_WRITE (R180): table in bits 7–4, page in bits 3–0. -/
  | tableSelectWrite (data : Byte)
  /-- ENTRY_POINTER_WRITE (R180). -/
  | entryPointerWrite (data : Byte)
  /-- ENTRY_DATA_WRITE (R180). -/
  | entryDataWrite (data : Byte)
  /-- ENTRY_DATA_READ (R180). -/
  | entryDataRead
  /-- EXPECTED_CHECKSUM_H (R182). -/
  | expectedChecksumH (data : Byte)
  /-- EXPECTED_CHECKSUM_L (R182). -/
  | expectedChecksumL (data : Byte)
  /-- VIEW_SELECT (R191): the code of R195. -/
  | viewSelect (code : Byte)
  /-- VIEW_DATA (R191). -/
  | viewData
  /-- REGISTER_WRITE_IGNORED (R178): the index number and the data byte written. -/
  | registerWriteIgnored (index : BitVec 7) (data : Byte)
  /-- TRANSACTION_ABANDON (R178). -/
  | transactionAbandon
  /-- LINE_BUSY (R127). -/
  | lineBusy
  /-- LINE_IDLE (R122). -/
  | lineIdle
  /-- HOLDOFF_EXPIRY (R129): the quiet time, in character times, the line has reached. -/
  | holdoffExpiry (quiet : Nat)
  /-- TRANSMIT_SUCCESS (R130). -/
  | transmitSuccess
  /-- COLLISION (R131). -/
  | collision
  /-- FRAME_RECEIVED (R135): characters of the frame being read that its record does not hold yet. -/
  | frameReceived (chars : List Byte)
  /-- PRE_CHECK (R151): the peer's track. -/
  | preCheck (id : TrackId)
  /-- FADE_DEADLINE (R73): the track. -/
  | fadeDeadline (id : TrackId)
  /-- CLOSE_DEADLINE (R74): the track. -/
  | closeDeadline (id : TrackId)
  /-- SILENCE_DEADLINE (R162): the station whose entry it is. -/
  | silenceDeadline (station : Nat)
  /-- TICK (R86). -/
  | tick
  /-- EVALUATION (R84). -/
  | evaluation
  /-- ACK_EVALUATION (R112). -/
  | ackEvaluation
  /-- EPOCH_BOUNDARY (R166). -/
  | epochBoundary
  /-- SLEW_STEP (R168). -/
  | slewStep
  /-- TRIM_STEP (R169). -/
  | trimStep
  /-- SCHEDULE_POINT (R172). -/
  | schedulePoint
  deriving DecidableEq, Repr

end Sys2Proof
end

