-- ==== Sys2Proof/Decode.lean ====
section
/-! DEFINITION. Decoding: the table gives none of its rows a word (log 26); the two bytes of a setup
transaction, as R195 lays them out, spell a row of the setup port. -/

namespace Sys2Proof

/-- The command that the low `nbits` bits of `w` spell by the bits of spec/opcode_table.json.
No row of the table gives bits, so no word spells a command (log 26). -/
def decodeTableWord (_nbits _w : Nat) : Option Instr := none

/-- R195: the row of a code written to COMMAND. -/
def decodeCommand (code : Byte) : Instr :=
  match code.toNat with
  | 1 => .hold
  | 2 => .clearBuffer
  | 3 => .commitPage
  | 4 => .start
  | 5 => .restart
  | 6 => .clearFaults
  | 7 => .channelOut
  | 8 => .channelIn
  | _ => .unknownCommand code

/-- R195: the row of a write to an index number. -/
def decodeWrite (index : BitVec 7) (data : Byte) : Instr :=
  match index.toNat with
  | 0x03 => decodeCommand data
  | 0x05 => .tableSelectWrite data
  | 0x06 => .entryPointerWrite data
  | 0x07 => .entryDataWrite data
  | 0x08 => .expectedChecksumH data
  | 0x09 => .expectedChecksumL data
  | 0x10 => .viewSelect data
  | _ => .registerWriteIgnored index data

/-- R195: the row of a read of an index number, none for a read that changes no state. -/
def decodeRead (index : BitVec 7) : Option Instr :=
  match index.toNat with
  | 0x07 => some .entryDataRead
  | 0x11 => some .viewData
  | _ => none

/-- R178, R195: the row that the index byte and the data byte of a transaction spell; bit 7 of the index
byte is 1 for a read and 0 for a write, bits 6–0 are the index number. -/
def decodeTransaction (index data : Byte) : Option Instr :=
  if index.msb then decodeRead (index.setWidth 7) else some (decodeWrite (index.setWidth 7) data)

end Sys2Proof
end

