-- ==== Sys2Proof/Config.lean ====
section
/-! DEFINITION. The numbers the manual fixes for every 4120, and the one value it leaves open. -/

namespace Sys2Proof.Config

/-- R59: track slots. -/
def trackSlots : Nat := 16
/-- R60, R70: sightings a track keeps. -/
def maxSightings : Nat := 6
/-- R143: entries of the Notice Queue. -/
def queueSize : Nat := 8
/-- R21, R22: anemometer window and full warming count. -/
def anemoWindow : Nat := 240
/-- R36: samples in the record of large changes. -/
def vaneWindow : Nat := 240
/-- R36: large changes that make VANE_ERRATIC hold. -/
def vaneErraticCount : Nat := 8
/-- R25: dust window. -/
def dustWindow : Nat := 4
/-- R30: low samples that make DUST_LAMP hold. -/
def lampLowCount : Nat := 20
/-- R35: qualifying samples that make ANEMO_SILENT hold, and the peers' median it asks for. -/
def silentCount : Nat := 2400
def silentMedian : Nat := 40
/-- R45: samples below the onset level that end an episode. -/
def quietRunEnd : Nat := 12
/-- R19: ms of a sample period. -/
def samplePeriod : Nat := 250
/-- R26: ms a new level must hold. -/
def filterMs : Nat := 10
/-- R177: ms of the setup window. -/
def windowMs : Nat := 30000
/-- R158, R106: three epochs. -/
def silenceMs : Nat := 24000
/-- Conventions: an epoch; R86: the spacing of ticks. -/
def epochMs : Nat := 8000
def tickMs : Nat := 1000
/-- R172: ms between two stations' schedule points. -/
def scheduleMs : Nat := 200
/-- R138: how far in the future a sighting time may lie. -/
def futureMs : Nat := 2000
/-- R167, R171: the greatest correction that is slewed in JOINING and that keeps PULLING time trusted. -/
def stepMs : Nat := 250
/-- R168: slew clamp and its spacing. -/
def slewMax : Nat := 8
def slewMs : Nat := 64
/-- R169: the trim's rail. -/
def trimMax : Nat := 64
/-- R122: 25ths of a character time in a ms, at 10 bits to a character and 38,400 bit/s. -/
def msQuiet : Nat := 96
/-- R122: quiet time stops here. -/
def quietMax : Nat := 255

/-- FREE VALUE (log 7). Two withholds in one millisecond: R164 says their effects add and that
common time never decreases, and does not say whether the second count is withheld in the next
millisecond (yes) or lost (no). Nothing constrains it. -/
opaque secondWithholdCarried : Bool

end Sys2Proof.Config
end

