-- ==== Sys2Proof/Machine/State.lean ====
section
/-! DEFINITION. The state of the 4120, block by block as the manual's State summary gives it, the
reasons a step could stop (there are none), and the state right after power-on. -/

namespace Sys2Proof.Machine

/-- Addressed bytes: cells with strictly rising addresses, none holding `Memory.blank`. -/
abbrev Memory := List Host.Cell

/-- What an unlisted address reads as: a cleared table and a cleared buffer are all zero (R1, R180). -/
def Memory.blank : Byte := 0

/-! ### Names -/

/-- Zone levels in rising order (Conventions). -/
inductive Level where
  | clear
  | watch
  | warn
  | alarm
  deriving DecidableEq, Repr

/-- The station state (R175). -/
inductive StationState where
  | window
  | setup
  | programming
  | joining
  | operating
  deriving DecidableEq, Repr

/-- The channels that can be taken out of service (R31). -/
inductive Channel where
  | anemo
  | vane
  | dust
  | suppr
  | ack
  | lamp
  deriving DecidableEq, Repr

/-- The lock state (R170). -/
inductive Lock where
  | free
  | pulling
  | locked
  deriving DecidableEq, Repr

/-- The state of a roster entry (R159). -/
inductive RosterState where
  | absent
  | present
  | silent
  | mismatch
  | self
  deriving DecidableEq, Repr

/-- The state of a track (R62); `opened` is OPEN. -/
inductive TrackState where
  | opened
  | confirmed
  | fading
  deriving DecidableEq, Repr

/-- The form of a SIGHTING (R63). -/
inductive Form where
  | new
  | join
  | update
  deriving DecidableEq, Repr

/-- The busy mark (R179); `clear` is none. -/
inductive BusyMark where
  | clear
  | commit
  | programming
  deriving DecidableEq, Repr

/-- The command result (R179); `nothing` is NONE. -/
inductive CmdResult where
  | nothing
  | done
  | refusedState
  | busy
  | refusedArgument
  deriving DecidableEq, Repr

/-- The setup error codes (R11); `noError` is NONE. -/
inductive SetupError where
  | noError
  | range
  | laneEndpoint
  | ownerAbsent
  | leadOrder
  | approachMissing
  | approachSource
  | mirrorLimit
  | mirrorAbsent
  | mirrorSelf
  | mirrorDepth
  | outputClash
  | ownerLoad
  | ownAbsent
  | checksum
  | storeInvalid
  | storeWrite
  deriving DecidableEq, Repr

/-- The kinds of fault event (R187). -/
inductive FaultFlag where
  | anemoSilent
  | vaneErratic
  | dustLamp
  | lineTrouble
  | duplicateStation
  | timeRail
  | storeFault
  deriving DecidableEq, Repr

/-! ### Input lines and the store -/

/-- Levels of the input lines, as last brought by a command or set by the environment. SSEL is active
low: `sselHigh` says that the port is not selected (R178). -/
structure Pins where
  sn : BitVec 5
  vane : BitVec 4
  lamp : Bool
  suppr : Bool
  ack : Bool
  rstLow : Bool
  sselHigh : Bool
  deriving DecidableEq, Repr

/-- The non-volatile store: 18 pages and a header (R183). -/
structure Store where
  valid : Bool
  checksum : Word16
  pages : Memory
  deriving DecidableEq, Repr

/-! ### SFE -/

/-- The Sensor Front End (R19–R39). The conditions ANEMO_SILENT, VANE_ERRATIC and DUST_LAMP are
computed from `silentRun`, `vaneRecord` and `lampLow`. -/
structure Sfe where
  anemoIn : Bool
  vaneIn : Bool
  dustIn : Bool
  supprIn : Bool
  ackIn : Bool
  lampIn : Bool
  anemoCount : Nat
  dustCount : Nat
  lastAnemo : Nat
  lastDust : Nat
  anemoWindow : List Nat
  warming : Nat
  g3 : Nat
  s60 : Option Nat
  raw : Nat
  accepted : Nat
  sectorTaken : Bool
  candidate : Option Nat
  run : Nat
  vanePrev : Option Nat
  vaneRecord : List Bool
  dustWindow : List Nat
  dustNumber : Nat
  lampHeld : Bool
  lampLow : Nat
  silentRun : Nat
  latch : Bool
  ackPending : Bool
  supprLevel : Bool
  ackLevel : Bool
  supprFilter : Nat
  ackFilter : Nat
  phase : Nat
  deriving DecidableEq, Repr

/-! ### GDU -/

/-- The episode record (R40). -/
structure Episode where
  reporting : Bool
  track : Option TrackId
  recorded : Bool
  onset : Time
  sector : Nat
  peakSpeed : Nat
  peakDust : Option Nat
  w : Bool
  trusted : Bool
  lastSpeed : Nat
  lastDust : Option Nat
  updates : Nat
  quiet : Nat
  deriving DecidableEq, Repr

/-- The episode state; the episode record exists while it is EPISODE (R40). -/
inductive Mode where
  | notReady
  | quiet
  | arming
  | episode (e : Episode)
  deriving DecidableEq, Repr

/-- The Gust Detector (R40). -/
structure Gdu where
  mode : Mode
  nextSeq : Nat
  deriving DecidableEq, Repr

/-! ### TRT -/

/-- A sighting record (R60). -/
structure Sighting where
  station : Nat
  time : Time
  speed : Nat
  dust : Option Nat
  w : Bool
  trusted : Bool
  updates : Nat
  deriving DecidableEq, Repr

/-- A track record (R59). -/
structure Track where
  id : TrackId
  state : TrackState
  confirmed : Bool
  placeholder : Bool
  onset : Option Time
  sector : Nat
  sightings : List Sighting
  peakSpeed : Nat
  peakDust : Option Nat
  w : Bool
  last : Time
  fade : Time
  close : Option Time
  deriving DecidableEq, Repr

/-! ### ZEV -/

/-- A zone state (R99). `lost` is the source state: no is GOOD, yes is LOST. -/
structure ZoneState where
  zone : Nat
  pair : Nat
  demand : Level
  level : Level
  hold : Option Time
  acked : Bool
  contribution : Level
  lost : Bool
  lostDeadline : Option Time
  degraded : Bool
  announced : Level
  deriving DecidableEq, Repr

/-- A received record (R104). -/
structure Received where
  zone : Nat
  received : Bool
  level : Level
  lostMark : Bool
  receipt : Time
  deriving DecidableEq, Repr

/-- The Zone Evaluator. -/
structure Zev where
  zones : List ZoneState
  received : List Received
  deriving DecidableEq, Repr

/-! ### NQ -/

/-- The payload of a SIGHTING notice (R143); the dust-present mark is yes when `dust` is present. -/
structure SightingNotice where
  id : TrackId
  form : Form
  w : Bool
  trusted : Bool
  time : Time
  sector : Nat
  speed : Nat
  dust : Option Nat
  updates : Nat
  deriving DecidableEq, Repr

/-- A notice: its kind and payload (R143). A PRESENCE holds no payload. -/
inductive Notice where
  | presence
  | sighting (p : SightingNotice)
  | zone (number : Nat) (level : Level)
  deriving DecidableEq, Repr

/-- The key of a notice (R143). -/
inductive Key where
  | presence
  | sighting (id : TrackId)
  | zone (number : Nat)
  deriving DecidableEq, Repr

/-- An entry of the queue (R143). `steps`, the steps of common time taken before the post, and `order`,
the serial of posting, are the model's own (log 13). -/
structure Entry where
  notice : Notice
  cls : Nat
  postTime : Time
  steps : Nat
  order : Nat
  attempts : Nat
  inFlight : Bool
  deriving DecidableEq, Repr

/-- The Notice Queue: entries in urgency order and the held post (R143, R144, R149). `steps` counts the
steps of common time since the queue was emptied (log 13). -/
structure Nq where
  entries : List Entry
  held : Option Entry
  steps : Nat
  nextOrder : Nat
  deriving DecidableEq, Repr

/-! ### QLC -/

/-- A running holdoff: its selected entry, its length, and the rotation count of its beginning
(R125, R128). -/
structure Holdoff where
  selected : Key
  length : Nat
  rotation : Nat
  deriving DecidableEq, Repr

/-- The receive record of one frame (R122, R134): its arrival time and the characters of it that are already
read. FRAME_RECEIVED brings characters (log 11). -/
structure RxFrame where
  arrival : Time
  chars : List Byte
  deriving DecidableEq, Repr

/-- The Quay Line Controller's line record (R122). `idleIn` is what is left, in 25ths of a character time,
until a BUSY line that carries no start bit becomes IDLE (log 17); `rx` is the frame being read, if any;
`ownRead` is the own frame in flight as it is read back (R130, R131). -/
structure Qlc where
  busy : Bool
  quiet : Nat
  quietFrac : Nat
  idleIn : Nat
  holdoff : Option Holdoff
  drawn : Nat
  seqReg : Word16
  inFlight : Option Key
  qde : Bool
  frame : List Byte
  rotation : Nat
  ownRead : Option RxFrame
  rx : Option RxFrame
  rejectCause : Nat
  rejectSender : Byte
  rejectKind : Byte
  deriving DecidableEq, Repr

/-! ### PRT -/

/-- A zone-list pair: zone, level, LOST mark (R120, R158). -/
structure ZonePair where
  zone : Nat
  level : Level
  lostMark : Bool
  deriving DecidableEq, Repr

/-- The announced fields of a roster entry, written together (R158). -/
structure Announced where
  operating : Bool
  lock : Lock
  trusted : Bool
  checksum : Word16
  trim : Int
  faults : BitVec 7
  s60 : Option Nat
  pairs : List ZonePair
  deriving DecidableEq, Repr

/-- A roster entry (R158). -/
structure RosterEntry where
  state : RosterState
  lastHeard : Time
  deadline : Option Time
  announced : Option Announced
  deriving DecidableEq, Repr

/-- A collected offset, with the lock state its sender announced (R165). -/
structure Offset where
  station : Nat
  offset : Int
  lock : Lock
  deriving DecidableEq, Repr

/-- Peer Roster and Common Time. `withheld` counts the withholds owed by the running millisecond. -/
structure Prt where
  time : Time
  withheld : Nat
  trim : Int
  trimPhase : Nat
  lock : Lock
  lockCount : Nat
  lastCorr : Option Int
  slew : Int
  slewPhase : Nat
  offsets : List Offset
  roster : List RosterEntry
  deriving DecidableEq, Repr

/-! ### SCS -/

/-- The fault register: seven sticky flags (R187). -/
structure Faults where
  anemoSilent : Bool
  vaneErratic : Bool
  dustLamp : Bool
  lineTrouble : Bool
  duplicateStation : Bool
  timeRail : Bool
  storeFault : Bool
  deriving DecidableEq, Repr

/-- What the last write to VIEW SELECT selected: a copied view's bytes, or a channel (R191). -/
inductive View where
  | nothing
  | copy (bytes : List Byte)
  | channel (c : Channel)
  deriving DecidableEq, Repr

/-- The part of the store being written: a page, in table order, or the header (R183). -/
inductive ProgStage where
  | page (k : Nat)
  | header
  deriving DecidableEq, Repr

/-- Programming in progress: its stage, whether that stage has been repeated, and the checksum
that the header is to hold (R183). -/
structure Programming where
  stage : ProgStage
  retried : Bool
  value : Word16
  deriving DecidableEq, Repr

/-- Station Control and Setup Port (R175). -/
structure Scs where
  station : StationState
  own : Nat
  windowTimer : Option Nat
  joining : Nat
  checksum : Word16
  buffer : Memory
  tableSel : Nat
  pageSel : Nat
  entryPtr : Nat
  byteOff : Nat
  expected : Word16
  busy : BusyMark
  result : CmdResult
  setupError : SetupError
  errTable : Nat
  errEntry : Nat
  faults : Faults
  healthArm : Bool
  quietEpoch : Bool
  prog : Option Programming
  view : View
  viewOff : Nat
  sdout : Option Byte
  sselSeen : Bool
  deriving DecidableEq, Repr

/-! ### The machine -/

/-- The whole state. `raised` holds the events the blocks have raised and no step has taken yet,
`pending` the commands from outside; both oldest first. -/
structure State where
  pins : Pins
  tables : Memory
  store : Store
  sfe : Sfe
  gdu : Gdu
  tracks : List (Option Track)
  zev : Zev
  nq : Nq
  qlc : Qlc
  prt : Prt
  scs : Scs
  raised : List Instr
  pending : List Instr
  deriving DecidableEq, Repr

/-- No behaviour of the manual stops the part, so no step ends in a fault. -/
inductive Fault where
  deriving DecidableEq, Repr

/-- Why a command has no meaning. Raised by no arm of `exec`: every row is modelled. -/
inductive Refusal where
  /-- The row has no meaning in this model; raised by an arm of `exec` and safe. -/
  | notModelled (mnemonic : String)
  deriving DecidableEq, Repr

/-! ### State after reset -/

/-- R38, with the sector fields of log 2 and the sample period of log 15; the recognised levels are
the live ones. -/
def Sfe.fresh (suppr ack : Bool) : Sfe where
  anemoIn := true
  vaneIn := true
  dustIn := true
  supprIn := true
  ackIn := true
  lampIn := true
  anemoCount := 0
  dustCount := 0
  lastAnemo := 0
  lastDust := 0
  anemoWindow := []
  warming := 0
  g3 := 0
  s60 := none
  raw := 0
  accepted := 0
  sectorTaken := false
  candidate := none
  run := 0
  vanePrev := none
  vaneRecord := []
  dustWindow := []
  dustNumber := 0
  lampHeld := false
  lampLow := 0
  silentRun := 0
  latch := false
  ackPending := false
  supprLevel := suppr
  ackLevel := ack
  supprFilter := 0
  ackFilter := 0
  phase := 0

/-- R157: no entry, no held post. -/
def Nq.empty : Nq := { entries := [], held := none, steps := 0, nextOrder := 0 }

/-- R122: 4 character times after a stop bit, in 25ths. -/
def idleAfterStop : Nat := 100

/-- R122: the character of a start bit and 4 character times after it, in 25ths. -/
def idleAfterStart : Nat := 125

/-- R83: every slot free. -/
def emptySlots : List (Option Track) := List.replicate Config.trackSlots none

/-- R126: the sequence register at power-on and line reset. -/
def seqStart (own : Nat) : Word16 := BitVec.ofNat 16 (own * 2039)

/-- R142: QLC after power-on: the line is BUSY until 4 quiet character times have passed. -/
def Qlc.fresh (own : Nat) : Qlc where
  busy := true
  quiet := 0
  quietFrac := 0
  idleIn := idleAfterStop
  holdoff := none
  drawn := 0
  seqReg := seqStart own
  inFlight := none
  qde := false
  frame := []
  rotation := 0
  ownRead := none
  rx := none
  rejectCause := 0
  rejectSender := 0
  rejectKind := 0

/-- A cleared roster entry (R159); last heard 0 is log 14. -/
def RosterEntry.cleared (state : RosterState) : RosterEntry :=
  { state := state, lastHeard := 0, deadline := none, announced := none }

/-- R159: the cleared roster of the station `own`. -/
def clearedRoster (own : Nat) : List RosterEntry :=
  (List.range 32).map fun k =>
    RosterEntry.cleared (if k + 1 = own then .self else .absent)

/-- R174: PRT after power-on. -/
def Prt.fresh (own : Nat) : Prt where
  time := 0
  withheld := 0
  trim := 0
  trimPhase := 0
  lock := .free
  lockCount := 0
  lastCorr := none
  slew := 0
  slewPhase := 0
  offsets := []
  roster := clearedRoster own

/-- R187: every flag clear. -/
def Faults.none : Faults := ⟨false, false, false, false, false, false, false⟩

/-- R176: SCS after power-on, for the own number and the checksum of step 2; R178: SSEL has been seen high
where it is high. -/
def Scs.fresh (own : Nat) (checksum : Word16) (sselHigh : Bool) : Scs where
  station := .window
  own := own
  windowTimer := some 0
  joining := 0
  checksum := checksum
  buffer := []
  tableSel := 0
  pageSel := 0
  entryPtr := 0
  byteOff := 0
  expected := 0
  busy := .clear
  result := .nothing
  setupError := .noError
  errTable := 0
  errEntry := 0
  faults := Faults.none
  healthArm := true
  quietEpoch := true
  prog := none
  view := .nothing
  viewOff := 0
  sdout := none
  sselSeen := sselHigh

/-- The 4120 right after power-on with a blank store, the setup port not selected and every other input
line low (log 1): station 1, in WINDOW, with cleared tables. -/
def State.reset : State where
  pins := { sn := 0, vane := 0, lamp := false, suppr := false, ack := false, rstLow := false, sselHigh := true }
  tables := []
  store := { valid := false, checksum := 0, pages := [] }
  sfe := Sfe.fresh false false
  gdu := { mode := .notReady, nextSeq := 0 }
  tracks := emptySlots
  zev := { zones := [], received := [] }
  nq := Nq.empty
  qlc := Qlc.fresh 1
  prt := Prt.fresh 1
  scs := Scs.fresh 1 0 true
  raised := []
  pending := []

end Sys2Proof.Machine
end

