-- ==== Sys2Proof/Machine/Ops.lean ====
section
/-! DEFINITION. The shared operations: addressed bytes, comparison of times, byte order, the CRC, the
levels' order, named updates of the state, and the raising and taking of events. -/

namespace Sys2Proof.Machine

/-! ### Addressed bytes -/

/-- The byte at `x`. -/
def Memory.read : Memory → Nat → Byte
  | [], _ => Memory.blank
  | (a, b) :: rest, x => if a = x then b else Memory.read rest x

/-- `m` with `b` at `x`, in canonical form: writing the blank value removes the cell. -/
def Memory.write : Memory → Nat → Byte → Memory
  | [], x, b => if b = Memory.blank then [] else [(x, b)]
  | (a, c) :: rest, x, b =>
    if x < a then (if b = Memory.blank then (a, c) :: rest else (x, b) :: (a, c) :: rest)
    else if x = a then (if b = Memory.blank then rest else (x, b) :: rest)
    else (a, c) :: Memory.write rest x b

/-- Addresses rise strictly from at least `lo`, and no cell holds the blank value. -/
def Memory.risingFrom : Nat → Memory → Bool
  | _, [] => true
  | lo, (a, b) :: rest => decide (lo ≤ a) && decide (b ≠ Memory.blank) && Memory.risingFrom (a + 1) rest

/-- The canonical form. -/
def Memory.wf (m : Memory) : Bool := Memory.risingFrom 0 m

/-- Every listed address is below `n`. -/
def Memory.below (m : Memory) (n : Nat) : Bool := m.all fun c => decide (c.1 < n)

/-- `n` bytes from address `a` on. -/
def Memory.readBlock (m : Memory) : Nat → Nat → List Byte
  | _, 0 => []
  | a, n + 1 => m.read a :: Memory.readBlock m (a + 1) n

/-- `m` with the bytes laid out from address `a` on. -/
def Memory.writeBlock : Memory → Nat → List Byte → Memory
  | m, _, [] => m
  | m, a, b :: bs => Memory.writeBlock (m.write a b) (a + 1) bs

/-! ### Time -/

/-- `a − b` modulo 2^32, read as a signed value (Conventions, "Time"). -/
def timeDiff (a b : Time) : Int := (a - b).toInt

/-- "Time `a` is earlier than time `b`". -/
def earlier (a b : Time) : Bool := decide (0 < timeDiff b a)

/-- A deadline passes when common time reaches it under this comparison. -/
def reached (now deadline : Time) : Bool := decide (0 ≤ timeDiff now deadline)

/-- The later of two times. -/
def laterTime (a b : Time) : Time := if earlier a b then b else a

/-- `n` milliseconds. -/
def ms (n : Nat) : Time := BitVec.ofNat 32 n

/-- A duration of the site tables, in whole seconds (Conventions). -/
def seconds (n : Nat) : Time := ms (n * 1000)

/-- The transit time for distance `d` at speed `v` (Conventions). -/
def transit (d v : Nat) : Nat := d * 10000 / max v 10

/-! ### Sectors -/

/-- Two sectors within ±1 of each other (Conventions). -/
def sectorNear (a b : Nat) : Bool :=
  let d := (a + 16 - b) % 16
  decide (d = 0 ∨ d = 1 ∨ d = 15)

/-- A sector mask contains a sector: bit k is sector k (R194). -/
def hasSector (mask : Word16) (k : Nat) : Bool := mask.getLsbD k

/-! ### Levels -/

/-- Level codes (11. Frame and Entry Formats). -/
def Level.toNat : Level → Nat
  | .clear => 0
  | .watch => 1
  | .warn => 2
  | .alarm => 3

def Level.ofNat? : Nat → Option Level
  | 0 => some .clear
  | 1 => some .watch
  | 2 => some .warn
  | 3 => some .alarm
  | _ => none

/-- "Maximum" of levels. -/
def Level.max (a b : Level) : Level := if a.toNat < b.toNat then b else a

/-- A level "drops by one" (Conventions). -/
def Level.drop : Level → Level
  | .alarm => .warn
  | .warn => .watch
  | .watch => .clear
  | .clear => .clear

/-! ### Medians (R35, R166) -/

def insertInt (x : Int) : List Int → List Int
  | [] => [x]
  | y :: ys => if x ≤ y then x :: y :: ys else y :: insertInt x ys

def sortInts : List Int → List Int
  | [] => []
  | x :: xs => insertInt x (sortInts xs)

/-- The middle value, or the mean of the two middle values rounded toward zero; 0 of nothing. -/
def median (l : List Int) : Int :=
  let s := sortInts l
  let h := s.length / 2
  if s.length % 2 = 1 then s.getD h 0 else (s.getD (h - 1) 0 + s.getD h 0).tdiv 2

/-- The newest `n` of a list kept newest last. -/
def newest {α : Type} (n : Nat) (l : List α) : List α := l.drop (l.length - n)

/-! ### Bytes, most significant first -/

def byteOf (n : Nat) : Byte := BitVec.ofNat 8 n

def bytes2 (n : Nat) : List Byte := [byteOf (n / 256), byteOf n]

def bytes4 (t : BitVec 32) : List Byte :=
  [byteOf (t.toNat / 16777216), byteOf (t.toNat / 65536), byteOf (t.toNat / 256), byteOf t.toNat]

def bitOf (b : Bool) (k : Nat) : Nat := if b then 2 ^ k else 0

def byteOfBool (b : Bool) : Byte := if b then 1 else 0

/-- A byte of a list of characters, 0 past its end. -/
def byteAt (c : List Byte) (i : Nat) : Nat := (c.getD i 0).toNat

def pairAt (c : List Byte) (i : Nat) : Nat := byteAt c i * 256 + byteAt c (i + 1)

def timeAt (c : List Byte) (i : Nat) : Time :=
  BitVec.ofNat 32 (pairAt c i * 65536 + pairAt c (i + 2))

/-- The absent code of dust index and S60. -/
def absentCode : Nat := 0xFFFF

/-- A dust index or S60 as it is carried: the absent code when absent. -/
def carried (v : Option Nat) : Nat := v.getD absentCode

/-! ### The CRC-16 (R193) -/

def crcBit (r : Word16) (d : Bool) : Word16 :=
  if r.msb = d then r <<< 1 else (r <<< 1) ^^^ 0x1021#16

def crcByte (r : Word16) (b : Byte) : Word16 :=
  [7, 6, 5, 4, 3, 2, 1, 0].foldl (fun r i => crcBit r (b.getLsbD i)) r

def crc16 (bytes : List Byte) : Word16 := bytes.foldl crcByte 0xFFFF#16

/-! ### The backoff sequence (R126) -/

/-- One step of the sequence register. -/
def seqAdvance (r : Word16) : Word16 :=
  let new := (r.getLsbD 15 ^^ r.getLsbD 13) ^^ (r.getLsbD 12 ^^ r.getLsbD 10)
  (r <<< 1) ||| (if new then 1#16 else 0#16)

/-! ### Outcomes -/

/-- What a step answers. -/
abbrev Answered := Host.Outcome State Fault Refusal

/-! ### Named updates of the state, one for each block -/

def State.mapSfe (s : State) (f : Sfe → Sfe) : State := { s with sfe := f s.sfe }
def State.mapGdu (s : State) (f : Gdu → Gdu) : State := { s with gdu := f s.gdu }
def State.mapZev (s : State) (f : Zev → Zev) : State := { s with zev := f s.zev }
def State.mapNq (s : State) (f : Nq → Nq) : State := { s with nq := f s.nq }
def State.mapQlc (s : State) (f : Qlc → Qlc) : State := { s with qlc := f s.qlc }
def State.mapPrt (s : State) (f : Prt → Prt) : State := { s with prt := f s.prt }
def State.mapScs (s : State) (f : Scs → Scs) : State := { s with scs := f s.scs }
def State.setTracks (s : State) (t : List (Option Track)) : State := { s with tracks := t }

/-- The present common time, the manual's "now". -/
def State.now (s : State) : Time := s.prt.time

/-- JOINING or OPERATING: the states in which the station takes part (R175). -/
def State.active (s : State) : Bool :=
  decide (s.scs.station = .joining ∨ s.scs.station = .operating)

/-- While RST is held low the 4120 is held (R176): the claim `f` is not taken. -/
def State.unlessHeld (s : State) (f : State → State) : State :=
  if s.pins.rstLow then s else f s

/-! ### The setup port (R176, R178) -/

/-- R176, R178: a transaction is taken while RST is high, and after a power-on or line reset only once
SSEL has been seen high (log 10). -/
def State.portOpen (s : State) : Bool := !s.pins.rstLow && s.scs.sselSeen

/-- A transaction of the setup port has its effect `f` where it is taken. -/
def State.throughPort (s : State) (f : State → State) : State :=
  if s.portOpen then f s else s

/-- R178: SSEL is seen high: SDOUT is released, and the next fall begins a transaction. -/
def State.sselSeenHigh (s : State) : State := s.mapScs fun c => { c with sdout := none, sselSeen := true }

/-- R178: SDOUT is released while SSEL is high; else it carries the byte last read. -/
def State.sdoutLine (s : State) : Option Byte := if s.pins.sselHigh then none else s.scs.sdout

/-! ### Events raised inside the part -/

/-- A block raises an event, to be taken after this claim (R81, R85). -/
def State.raise (s : State) (e : Instr) : State := { s with raised := s.raised ++ [e] }

/-- The event that this step takes no longer waits: the oldest raised one that `p` picks, if any. -/
def State.takeEvent (s : State) (p : Instr → Bool) : State := { s with raised := s.raised.eraseP p }

/-- The waiting events that `p` picks have not come about after all. -/
def State.dropEvents (s : State) (p : Instr → Bool) : State :=
  { s with raised := s.raised.filter fun e => !p e }

def isLineIdle (e : Instr) : Bool := decide (e = .lineIdle)

def isSampleEvent : Instr → Bool
  | .sampleEvent _ _ => true
  | _ => false

def isSupprTransition : Instr → Bool
  | .supprTransition _ => true
  | _ => false

def isAckTransition : Instr → Bool
  | .ackTransition _ => true
  | _ => false

def isHoldoffExpiry : Instr → Bool
  | .holdoffExpiry _ => true
  | _ => false

end Sys2Proof.Machine
end

