-- ==== Sys2Proof/Machine/Operands.lean ====
section
/-! DEFINITION. The layouts of table entries and frames (11. Frame and Entry Formats): how the blocks
read the working tables, how a frame's payload is read, and how one is laid out for sending. -/

namespace Sys2Proof.Machine

/-! ### Pages and entries (R1, R194) -/

/-- R194: bytes of one entry of a table. -/
def entryLen : Nat → Nat
  | 0 => 12
  | 1 => 7
  | 2 => 6
  | _ => 50

/-- R1: pages of a table; none above table 3. -/
def tablePages : Nat → Nat
  | 0 => 1
  | 1 => 2
  | 2 => 12
  | 3 => 3
  | _ => 0

/-- R18: where a table begins among the 3968 bytes, in table order. -/
def tableBase : Nat → Nat
  | 0 => 0
  | 1 => 192
  | 2 => 416
  | _ => 1568

/-- R193: bytes of the 18 pages. -/
def tableBytes : Nat := 3968

/-- R1: 16 entry positions a page. -/
def pageLen (table : Nat) : Nat := 16 * entryLen table

def pageAddr (table page : Nat) : Nat := tableBase table + pageLen table * page

def entryAddr (table i : Nat) : Nat := tableBase table + entryLen table * i

/-- R18, R183: the 18 pages in table order. -/
def pageOrder : List (Nat × Nat) :=
  [(0, 0), (1, 0), (1, 1), (2, 0), (2, 1), (2, 2), (2, 3), (2, 4), (2, 5), (2, 6), (2, 7), (2, 8),
   (2, 9), (2, 10), (2, 11), (3, 0), (3, 1), (3, 2)]

/-- A one-byte field of entry `i` of a table. -/
def field1 (m : Memory) (table i off : Nat) : Nat := (m.read (entryAddr table i + off)).toNat

/-- A two-byte field. -/
def field2 (m : Memory) (table i off : Nat) : Nat :=
  field1 m table i off * 256 + field1 m table i (off + 1)

/-! ### Site record (R2) -/

structure Site where
  zoneCount : Nat
  laneCount : Nat
  confirmCount : Nat
  fadeTime : Nat
  closeTime : Nat
  tolerance : Nat
  minimum : Nat
  updateStep : Nat
  pileDust : Nat
  deriving DecidableEq, Repr

def site (m : Memory) : Site where
  zoneCount := field1 m 0 0 0
  laneCount := field1 m 0 0 1
  confirmCount := field1 m 0 0 2
  fadeTime := field2 m 0 0 3
  closeTime := field2 m 0 0 5
  tolerance := field1 m 0 0 7
  minimum := field1 m 0 0 8
  updateStep := field1 m 0 0 9
  pileDust := field2 m 0 0 10

/-! ### Station table (R4, R5) -/

structure StationRec where
  present : Bool
  supprHigh : Bool
  ackRising : Bool
  rank : Nat
  speedFactor : Nat
  dustFactor : Nat
  gustFloor : Nat
  onsetRatio : Nat
  deriving DecidableEq, Repr

/-- The entry of station number `n`, at position `n − 1`. -/
def stationRec (m : Memory) (n : Nat) : StationRec :=
  let marks := m.read (entryAddr 1 (n - 1))
  { present := marks.getLsbD 0
    supprHigh := marks.getLsbD 1
    ackRising := marks.getLsbD 2
    rank := field1 m 1 (n - 1) 1
    speedFactor := field1 m 1 (n - 1) 2
    dustFactor := field1 m 1 (n - 1) 3
    gustFloor := field2 m 1 (n - 1) 4
    onsetRatio := field1 m 1 (n - 1) 6 }

/-- The station exists on the site (R4); numbers outside 1–32 name no entry. -/
def stationPresent (m : Memory) (n : Nat) : Bool :=
  decide (1 ≤ n ∧ n ≤ 32) && (stationRec m n).present

/-- R4: the rank of a present station; an absent entry's other fields have no effect (log 22). -/
def rankOf (m : Memory) (n : Nat) : Option Nat :=
  if stationPresent m n then some (stationRec m n).rank else none

/-! ### Lane table (R6) -/

structure LaneRec where
  source : Nat
  target : Nat
  mask : Word16
  distance : Nat
  deriving DecidableEq, Repr

def laneRec (m : Memory) (i : Nat) : LaneRec where
  source := field1 m 2 i 0
  target := field1 m 2 i 1
  mask := BitVec.ofNat 16 (field2 m 2 i 2)
  distance := field2 m 2 i 4

/-- R3: the lanes in force, in table order (positions past 191 do not exist, log 20). -/
def lanesInForce (m : Memory) : List LaneRec :=
  (List.range (min (site m).laneCount 192)).map (laneRec m)

/-- R6: the first lane in force from `source` to `target` whose mask contains `sector`. -/
def firstLane (m : Memory) (source target sector : Nat) : Option LaneRec :=
  (lanesInForce m).find? fun l =>
    decide (l.source = source ∧ l.target = target) && hasSector l.mask sector

/-! ### Zone table (R7–R10) -/

/-- R7: the kind; a code other than 1 to 3 is `invalid`, which R12 refuses. -/
inductive ZoneKind where
  | computed
  | mirror
  | combined
  | invalid
  deriving DecidableEq, Repr

def zoneKind : Nat → ZoneKind
  | 1 => .computed
  | 2 => .mirror
  | 3 => .combined
  | _ => .invalid

/-- MIRROR and COMBINED zones follow a mirror source (R10). -/
def ZoneKind.mirrors : ZoneKind → Bool
  | .mirror => true
  | .combined => true
  | .computed => false
  | .invalid => false

/-- COMPUTED and COMBINED zones are raised by tracks (R7). -/
def ZoneKind.computes : ZoneKind → Bool
  | .computed => true
  | .combined => true
  | .mirror => false
  | .invalid => false

structure Approach where
  source : Nat
  mask : Word16
  distance : Nat
  deriving DecidableEq, Repr

structure ZoneRec where
  present : Bool
  kindCode : Nat
  owner : Nat
  pair : Nat
  predicate : Nat
  gustLimit : Nat
  dustLimit : Nat
  watchLead : Nat
  warnLead : Nat
  alarmLead : Nat
  holdTime : Nat
  alarmRank : Nat
  source : Nat
  approachCount : Nat
  deriving DecidableEq, Repr

def zoneRec (m : Memory) (i : Nat) : ZoneRec where
  present := (m.read (entryAddr 3 i)).getLsbD 0
  kindCode := field1 m 3 i 1
  owner := field1 m 3 i 2
  pair := field1 m 3 i 3
  predicate := field1 m 3 i 4
  gustLimit := field2 m 3 i 5
  dustLimit := field2 m 3 i 7
  watchLead := field2 m 3 i 9
  warnLead := field2 m 3 i 11
  alarmLead := field2 m 3 i 13
  holdTime := field2 m 3 i 15
  alarmRank := field1 m 3 i 17
  source := field1 m 3 i 18
  approachCount := field1 m 3 i 19

def ZoneRec.kind (z : ZoneRec) : ZoneKind := zoneKind z.kindCode

/-- Approach entry `k` of zone `i` (R9). -/
def approachRec (m : Memory) (i k : Nat) : Approach where
  source := field1 m 3 i (20 + 5 * k)
  mask := BitVec.ofNat 16 (field2 m 3 i (21 + 5 * k))
  distance := field2 m 3 i (23 + 5 * k)

/-- R9: the approach entries in force. -/
def approaches (m : Memory) (i : Nat) : List Approach :=
  (List.range (min (zoneRec m i).approachCount 6)).map (approachRec m i)

/-- The present mark of zone `i`; positions past 47 do not exist (log 20). -/
def zonePresent (m : Memory) (i : Nat) : Bool := decide (i < 48) && (zoneRec m i).present

/-- R7: the descriptor describes a zone: it is in force and its present mark is set. -/
def zoneDescribed (m : Memory) (i : Nat) : Bool :=
  decide (i < (site m).zoneCount) && zonePresent m i

/-- R7: the zones owned by a station, in ascending zone number. -/
def ownedZones (m : Memory) (own : Nat) : List Nat :=
  (List.range 48).filter fun i => zoneDescribed m i && decide ((zoneRec m i).owner = own)

/-- R12: the conditions of RANGE on a site record. -/
def Site.inRange (r : Site) : Bool :=
  decide (1 ≤ r.zoneCount ∧ r.zoneCount ≤ 48) && decide (r.laneCount ≤ 192) &&
  decide (2 ≤ r.confirmCount ∧ r.confirmCount ≤ 4) &&
  decide (30 ≤ r.fadeTime ∧ r.fadeTime ≤ 300) && decide (30 ≤ r.closeTime ∧ r.closeTime ≤ 300) &&
  decide (10 ≤ r.tolerance ∧ r.tolerance ≤ 50) && decide (1 ≤ r.minimum ∧ r.minimum ≤ 10) &&
  decide (10 ≤ r.updateStep ∧ r.updateStep ≤ 50) && decide (r.pileDust ≤ 1023)

/-- R12: the conditions of RANGE on a present station entry. -/
def StationRec.inRange (r : StationRec) : Bool :=
  decide (r.rank ≤ 3) && decide (1 ≤ r.speedFactor ∧ r.speedFactor ≤ 255) &&
  decide (1 ≤ r.dustFactor ∧ r.dustFactor ≤ 255) &&
  decide (30 ≤ r.gustFloor ∧ r.gustFloor ≤ 400) && decide (20 ≤ r.onsetRatio ∧ r.onsetRatio ≤ 48)

/-- R12: the conditions of RANGE on a lane. -/
def LaneRec.inRange (r : LaneRec) : Bool :=
  decide (1 ≤ r.source ∧ r.source ≤ 32) && decide (1 ≤ r.target ∧ r.target ≤ 32) &&
  decide (20 ≤ r.distance ∧ r.distance ≤ 3000)

/-- R12: the conditions of RANGE on a present zone entry, its approach entries apart. -/
def ZoneRec.inRange (r : ZoneRec) : Bool :=
  decide (1 ≤ r.owner ∧ r.owner ≤ 32) && decide (r.kind ≠ .invalid) && decide (r.pair ≤ 3) &&
  decide (r.predicate ≤ 15) && decide (r.gustLimit ≤ 600) && decide (r.dustLimit ≤ 1023) &&
  decide (r.watchLead ≤ 600) && decide (r.warnLead ≤ 600) && decide (r.alarmLead ≤ 600) &&
  decide (30 ≤ r.holdTime ∧ r.holdTime ≤ 1800) && decide (r.alarmRank ≤ 3) &&
  decide (r.approachCount ≤ 6) && (!r.kind.mirrors || decide (r.source ≤ 47))

/-- R12: the conditions of RANGE on an approach entry in force. -/
def Approach.inRange (a : Approach) : Bool :=
  decide (1 ≤ a.source ∧ a.source ≤ 32) && decide (a.distance ≤ 3000)

/-! ### Frames (R192) -/

inductive FrameKind where
  | presence
  | sighting
  | zone
  deriving DecidableEq, Repr

def frameKind : Nat → Option FrameKind
  | 0x31 => some .presence
  | 0x32 => some .sighting
  | 0x33 => some .zone
  | _ => none

def FrameKind.code : FrameKind → Byte
  | .presence => 0x31
  | .sighting => 0x32
  | .zone => 0x33

/-- R192: the length bytes a kind allows. -/
def FrameKind.lengthOk : FrameKind → Nat → Bool
  | .presence, n => decide (n = 16 ∨ n = 18 ∨ n = 20 ∨ n = 22 ∨ n = 24)
  | .sighting, n => decide (n = 20)
  | .zone, n => decide (n = 9)

/-- Form codes (R192); 3 is invalid. -/
def formOf : Nat → Option Form
  | 0 => some .new
  | 1 => some .join
  | 2 => some .update
  | _ => none

def Form.code : Form → Nat
  | .new => 0
  | .join => 1
  | .update => 2

/-- Lock codes (R192); 3 is invalid. -/
def lockOf : Nat → Option Lock
  | 0 => some .free
  | 1 => some .pulling
  | 2 => some .locked
  | _ => none

def Lock.code : Lock → Nat
  | .free => 0
  | .pulling => 1
  | .locked => 2

/-- Bit `k` of a byte read as a number. -/
def markAt (n k : Nat) : Bool := n / 2 ^ k % 2 == 1

/-- A one-byte signed value. -/
def signed8 (n : Nat) : Int := (BitVec.ofNat 8 n).toInt

/-- R192, R138: the SIGHTING payload of a frame, none when a field of it is out of range. -/
def readSighting (c : List Byte) : Option SightingNotice :=
  match formOf (byteAt c 9 % 4) with
  | none => none
  | some form =>
    let dustMark := markAt (byteAt c 9) 6
    let dust := pairAt c 17
    if decide (1 ≤ byteAt c 7 ∧ byteAt c 7 ≤ 32) &&
        (decide (form ≠ .new) || decide (byteAt c 7 = byteAt c 2)) &&
        decide (byteAt c 14 ≤ 15) && decide (pairAt c 15 ≤ 600) &&
        (if dustMark then decide (dust ≤ 1023) else decide (dust = absentCode)) &&
        decide (byteAt c 19 ≤ 3) then
      some
        { id := { origin := byteAt c 7, seq := byteAt c 8 }
          form := form
          w := markAt (byteAt c 9) 4
          trusted := markAt (byteAt c 9) 5
          time := timeAt c 10
          sector := byteAt c 14
          speed := pairAt c 15
          dust := if dustMark then some dust else none
          updates := byteAt c 19 }
    else none

/-- R192, R138: the zone list of a PRESENCE with `k` pairs from offset `off` on, none when a level
is not one of the four. -/
def readPairs (c : List Byte) : Nat → Nat → Option (List ZonePair)
  | 0, _ => some []
  | k + 1, off =>
    match Level.ofNat? (byteAt c (off + 1) % 128), readPairs c k (off + 2) with
    | some level, some rest =>
      some ({ zone := byteAt c off, level := level, lostMark := markAt (byteAt c (off + 1)) 7 } :: rest)
    | _, _ => none

/-- R192, R138: the PRESENCE payload of a frame, none when a field of it is out of range. -/
def readPresence (c : List Byte) : Option Announced :=
  match lockOf (byteAt c 8 % 4), readPairs c (byteAt c 15) 16 with
  | some lock, some pairs =>
    if decide (byteAt c 7 = 4 ∨ byteAt c 7 = 5) &&
        decide (-64 ≤ signed8 (byteAt c 11) ∧ signed8 (byteAt c 11) ≤ 64) &&
        decide (pairAt c 13 ≤ 600 ∨ pairAt c 13 = absentCode) then
      some
        { operating := decide (byteAt c 7 = 5)
          lock := lock
          trusted := markAt (byteAt c 8) 2
          checksum := BitVec.ofNat 16 (pairAt c 9)
          trim := signed8 (byteAt c 11)
          faults := BitVec.ofNat 7 (byteAt c 12)
          s60 := if pairAt c 13 = absentCode then none else some (pairAt c 13)
          pairs := pairs }
    else none
  | _, _ => none

/-- R192: the bytes of a SIGHTING payload. -/
def sightingBytes (p : SightingNotice) : List Byte :=
  [byteOf p.id.origin, byteOf p.id.seq,
    byteOf (p.form.code + bitOf p.w 4 + bitOf p.trusted 5 + bitOf p.dust.isSome 6)]
  ++ bytes4 p.time ++ [byteOf p.sector] ++ bytes2 p.speed ++ bytes2 (carried p.dust)
  ++ [byteOf p.updates]

/-- R192: the lock byte: lock state and trusted mark. -/
def lockByte (lock : Lock) (trusted : Bool) : Byte := byteOf (lock.code + bitOf trusted 2)

/-- R192: a zone-list pair. -/
def pairBytes (p : ZonePair) : List Byte :=
  [byteOf p.zone, byteOf (p.level.toNat + bitOf p.lostMark 7)]

/-- R192: the bytes of a PRESENCE payload, and the tail of the roster view (R196). -/
def announcedBytes (a : Announced) : List Byte :=
  [if a.operating then 5 else 4, lockByte a.lock a.trusted] ++ bytes2 a.checksum.toNat
  ++ [BitVec.ofInt 8 a.trim, a.faults.setWidth 8] ++ bytes2 (carried a.s60)
  ++ [byteOf a.pairs.length] ++ a.pairs.flatMap pairBytes

/-- R123, R192: a whole frame: header, payload and CRC. -/
def frameBytes (kind : FrameKind) (sender : Nat) (stamp : Time) (payload : List Byte) : List Byte :=
  let body := [kind.code, byteOf (payload.length + 7), byteOf sender] ++ bytes4 stamp ++ payload
  body ++ bytes2 (crc16 body).toNat

end Sys2Proof.Machine
end

