-- ==== Sys2Proof/Machine/Flags.lean ====
section
/-! DEFINITION. The fault register, the conditions that feed it, trusted time, the codes of the
status bytes, and the TROUBLE line. -/

namespace Sys2Proof.Machine

/-! ### Conditions (R30, R35, R36, R169, R187) -/

/-- R35. -/
def Sfe.anemoSilent (f : Sfe) : Bool := decide (f.silentRun = Config.silentCount)

/-- R36: at least 8 of the recorded samples are large changes. -/
def Sfe.largeChanges (f : Sfe) : Nat := f.vaneRecord.countP id
def Sfe.vaneErratic (f : Sfe) : Bool := decide (Config.vaneErraticCount ≤ f.largeChanges)

/-- R30. -/
def Sfe.dustLamp (f : Sfe) : Bool := decide (f.lampLow = Config.lampLowCount)

/-- R169: the trim is on its rail. -/
def Prt.timeRail (p : Prt) : Bool := decide (p.trim.natAbs = Config.trimMax)

/-- R25: the dust index, absent while DUST_LAMP holds; where CHANNEL_IN of LAMP ends the condition (R34) it is
present at once, with the number of the last sample (log 43). -/
def Sfe.dustIndex (f : Sfe) : Option Nat := if f.dustLamp then none else some f.dustNumber

/-- R189: one of the four conditions is present. -/
def State.conditionPresent (s : State) : Bool :=
  s.sfe.anemoSilent || s.sfe.vaneErratic || s.sfe.dustLamp || s.prt.timeRail

/-! ### The fault register (R187) -/

def Faults.get (f : Faults) : FaultFlag → Bool
  | .anemoSilent => f.anemoSilent
  | .vaneErratic => f.vaneErratic
  | .dustLamp => f.dustLamp
  | .lineTrouble => f.lineTrouble
  | .duplicateStation => f.duplicateStation
  | .timeRail => f.timeRail
  | .storeFault => f.storeFault

def Faults.set (f : Faults) : FaultFlag → Faults
  | .anemoSilent => { f with anemoSilent := true }
  | .vaneErratic => { f with vaneErratic := true }
  | .dustLamp => { f with dustLamp := true }
  | .lineTrouble => { f with lineTrouble := true }
  | .duplicateStation => { f with duplicateStation := true }
  | .timeRail => { f with timeRail := true }
  | .storeFault => { f with storeFault := true }

def Faults.any (f : Faults) : Bool :=
  f.anemoSilent || f.vaneErratic || f.dustLamp || f.lineTrouble || f.duplicateStation ||
    f.timeRail || f.storeFault

/-- R192: the layout of the fault flags, bit 0 to bit 6. -/
def Faults.bits (f : Faults) : BitVec 7 :=
  BitVec.ofNat 7 (bitOf f.anemoSilent 0 + bitOf f.vaneErratic 1 + bitOf f.dustLamp 2 +
    bitOf f.lineTrouble 3 + bitOf f.duplicateStation 4 + bitOf f.timeRail 5 + bitOf f.storeFault 6)

/-- R188: CLEAR FAULTS: event flags go, a condition flag stays while its condition is present. -/
def Faults.cleared (f : Faults) (silent erratic lamp rail : Bool) : Faults where
  anemoSilent := f.anemoSilent && silent
  vaneErratic := f.vaneErratic && erratic
  dustLamp := f.dustLamp && lamp
  lineTrouble := false
  duplicateStation := false
  timeRail := f.timeRail && rail
  storeFault := false

/-! ### Trusted time (R171) -/

def Prt.trusted (p : Prt) : Bool :=
  match p.lock, p.lastCorr with
  | .locked, _ => true
  | .pulling, some c => decide (c.natAbs ≤ Config.stepMs)
  | .pulling, none => false
  | .free, _ => false

/-! ### Codes of the setup port (R195, R11) -/

def StationState.code : StationState → Nat
  | .window => 1
  | .setup => 2
  | .programming => 3
  | .joining => 4
  | .operating => 5

def CmdResult.code : CmdResult → Byte
  | .nothing => 0
  | .done => 1
  | .refusedState => 2
  | .busy => 3
  | .refusedArgument => 4

def SetupError.code : SetupError → Byte
  | .noError => 0
  | .range => 1
  | .laneEndpoint => 2
  | .ownerAbsent => 3
  | .leadOrder => 4
  | .approachMissing => 5
  | .approachSource => 6
  | .mirrorLimit => 7
  | .mirrorAbsent => 8
  | .mirrorSelf => 9
  | .mirrorDepth => 10
  | .outputClash => 11
  | .ownerLoad => 12
  | .ownAbsent => 13
  | .checksum => 14
  | .storeInvalid => 15
  | .storeWrite => 16

def RosterState.code : RosterState → Byte
  | .absent => 0
  | .present => 1
  | .silent => 2
  | .mismatch => 3
  | .self => 4

def TrackState.code : TrackState → Byte
  | .opened => 0
  | .confirmed => 1
  | .fading => 2

/-- R195: STATUS; bits 7 and 6, which it does not name, read 0 (log 37). -/
def Scs.statusByte (c : Scs) : Byte :=
  byteOf (c.station.code + bitOf (decide (c.busy ≠ .clear)) 3 +
    bitOf (decide (c.station = .window)) 4 + bitOf (decide (c.setupError ≠ .noError)) 5)

/-- R195: FAULTS. -/
def Scs.faultsByte (c : Scs) : Byte := c.faults.bits.setWidth 8

/-- R179: RESULT reads BUSY while the busy mark is set. -/
def Scs.resultByte (c : Scs) : Byte :=
  if c.busy = .clear then c.result.code else CmdResult.busy.code

/-! ### TROUBLE (R190, R176) -/

/-- R190: asserted while any flag is set, while the state is not OPERATING, while RST is held low. -/
def State.trouble (s : State) : Bool :=
  s.pins.rstLow || s.scs.faults.any || decide (s.scs.station ≠ .operating)

/-! ### Mirror sources and roster entries, as other blocks read them -/

/-- R4, R159: an entry for a number that is absent from the station table is ABSENT, whatever was heard
before a commit made it so; SELF is SELF whatever the table holds. -/
def RosterEntry.asListed (listed : Bool) (e : RosterEntry) : RosterEntry :=
  if listed || decide (e.state = .self) then e else { e with state := .absent, deadline := none }

/-- The roster entry of station `n`, 1–32 (R158). -/
def State.rosterOf (s : State) (n : Nat) : Option RosterEntry :=
  if n = 0 then none
  else (s.prt.roster[n - 1]?).map (RosterEntry.asListed (stationPresent s.tables n))

/-- The roster state of station `n`. -/
def State.rosterState (s : State) (n : Nat) : Option RosterState := (s.rosterOf n).map (·.state)

/-- R104: the received record of a source zone. -/
def State.receivedOf (s : State) (zone : Nat) : Option Received :=
  s.zev.received.find? fun r => decide (r.zone = zone)

/-- R163: the station owns the mirror source of an owned zone. -/
def State.ownsSource (s : State) (station : Nat) : Bool :=
  s.zev.received.any fun r => decide ((zoneRec s.tables r.zone).owner = station)

/-- R163, R85: a change of a roster entry's state raises an evaluation when its station owns the
mirror source of an owned zone. -/
def State.rosterChanged (s : State) (station : Nat) : State :=
  if s.ownsSource station then s.raise .evaluation else s

end Sys2Proof.Machine
end

