-- ==== Sys2Proof/Machine/Queue.lean ====
section
/-! DEFINITION. The Notice Queue (8. The Notice Queue) with QLC's selection and holdoff, which follow
every change of the queue or of eligibility (R124–R128), and the setting of a fault flag, which may
post a PRESENCE (R187, R189). -/

namespace Sys2Proof.Machine

/-! ### Keys and urgency order (R143, R144) -/

def Notice.key : Notice → Key
  | .presence => .presence
  | .sighting p => .sighting p.id
  | .zone z _ => .zone z

def Entry.key (e : Entry) : Key := e.notice.key

/-- R144: of two entries posted between the same steps of common time, the one of the earlier post time,
and of equal post times the one whose post was taken first. -/
def Entry.postedBefore (a b : Entry) : Bool :=
  earlier a.postTime b.postTime || (!earlier b.postTime a.postTime && decide (a.order < b.order))

/-- R144: by class, then by post time under the comparison of common time, an entry posted before a step
counting as earlier than one posted after it, then in the order the posts were taken (log 13). -/
def Entry.before (a b : Entry) : Bool :=
  decide (a.cls < b.cls) ||
    (decide (a.cls = b.cls) &&
      (decide (a.steps < b.steps) || (decide (a.steps = b.steps) && a.postedBefore b)))

/-- R144: the entry before the first one that it precedes (log 40: also where post times are in no order). -/
def insertEntry (e : Entry) : List Entry → List Entry
  | [] => [e]
  | x :: xs => if e.before x then e :: x :: xs else x :: insertEntry e xs

def removeOrder (n : Nat) (es : List Entry) : List Entry := es.filter fun e => decide (e.order ≠ n)

def State.setEntries (s : State) (es : List Entry) : State := s.mapNq fun q => { q with entries := es }

def State.entryOf (s : State) (k : Key) : Option Entry :=
  s.nq.entries.find? fun e => decide (e.key = k)

/-! ### Eligibility, selection, holdoff (R124–R128) -/

/-- R124. -/
def State.eligible (s : State) (n : Notice) : Bool :=
  !s.scs.faults.duplicateStation &&
    match s.scs.station, n with
    | .operating, _ => true
    | .joining, .presence => true
    | .joining, _ => false
    | .window, _ => false
    | .setup, _ => false
    | .programming, _ => false

/-- R124, R144: the first entry in urgency order that is eligible and not in flight. -/
def State.selection (s : State) : Option Entry :=
  s.nq.entries.find? fun e => !e.inFlight && s.eligible e.notice

/-- R125: the turn position for a rotation count. -/
def position (own rotation : Nat) : Nat := (own - 1 + rotation) % 32 + 1

/-- R125: the holdoff length, in character times. -/
def holdoffLength (own rotation cls attempts drawn : Nat) : Nat :=
  40 * cls + position own rotation + attempts * drawn

/-- R125, R128: the running holdoff, if any, runs out at once when quiet time has reached its length. -/
def State.expiryDue (s : State) : Bool :=
  match s.qlc.holdoff with
  | none => false
  | some h => decide (h.length ≤ s.qlc.quiet)

/-- R125, R128: the expiry of the running holdoff waits exactly while it is due (log 4). -/
def State.expiryCheck (s : State) : State :=
  if s.expiryDue then
    (if s.raised.any isHoldoffExpiry then s else s.raise (.holdoffExpiry s.qlc.quiet))
  else { s with raised := s.raised.filter fun e => !isHoldoffExpiry e }

/-- R127, R128, R142: a running holdoff stops, its expiry with it. -/
def State.stopHoldoff (s : State) : State :=
  (s.mapQlc fun q => { q with holdoff := none }).expiryCheck

/-- R125, R126: a holdoff begins: a draw, and the length for the entry selected. -/
def State.beginHoldoff (s : State) (e : Entry) : State :=
  let reg := seqAdvance s.qlc.seqReg
  let drawn := reg.toNat % 8
  let h : Holdoff :=
    { selected := e.key
      length := holdoffLength s.scs.own s.qlc.rotation e.cls e.attempts drawn
      rotation := s.qlc.rotation }
  (s.mapQlc fun q => { q with seqReg := reg, drawn := drawn, holdoff := some h }).expiryCheck

/-- R128: the running holdoff's selection and length follow the queue, with the drawn value and the
rotation count of its beginning. -/
def State.reselect (s : State) (h : Holdoff) (e : Entry) : State :=
  let length := holdoffLength s.scs.own h.rotation e.cls e.attempts s.qlc.drawn
  let h' : Holdoff := { h with selected := e.key, length := length }
  (s.mapQlc fun q => { q with holdoff := some h' }).expiryCheck

/-- QLC follows a change of the queue or of eligibility: a running holdoff reselects or stops
(R128); with the line IDLE and none running, an eligible notice begins one (R125). -/
def State.follow (s : State) : State :=
  match s.qlc.holdoff, s.selection with
  | some h, some e => s.reselect h e
  | some _, none => s.stopHoldoff
  | none, some e => if s.qlc.busy then s else s.beginHoldoff e
  | none, none => s

/-! ### Folding and displacement (R146–R150) -/

/-- R146–R148: a post folded into the entry that holds its key. -/
def foldNotice (e : Entry) (n : Notice) (cls : Nat) : Entry :=
  match e.notice, n with
  | .sighting p, .sighting q =>
    match q.form with
    | .update =>
      { e with notice :=
          .sighting { p with speed := q.speed, dust := q.dust, w := q.w, updates := q.updates } }
    | .new => { e with notice := .sighting q, cls := cls }
    | .join => { e with notice := .sighting q, cls := cls }
  | .zone z _, .zone _ l => { e with notice := .zone z l, cls := cls }
  | .presence, _ => e
  | .sighting _, _ => e
  | .zone _ _, _ => e

/-- R119: the last announced level of an owned zone. -/
def State.announced (s : State) (zone : Nat) : Option Level :=
  (s.zev.zones.find? fun z => decide (z.zone = zone)).map (·.announced)

/-- R147: a ZONE whose level equals the last announced level is redundant. -/
def State.redundant (s : State) (n : Notice) : Bool :=
  match n with
  | .zone z l => decide (s.announced z = some l)
  | .presence => false
  | .sighting _ => false

/-- R150: the entry last in urgency order among those not in flight. -/
def lastWaiting (es : List Entry) : Option Entry := es.reverse.find? fun e => !e.inFlight

/-- R145, R150: a new entry is placed, a full queue first discarding the least urgent waiting entry
of a class greater than the post's, or else dropping the post. -/
def State.place (s : State) (e : Entry) : State :=
  if s.nq.entries.length < Config.queueSize then s.setEntries (insertEntry e s.nq.entries)
  else
    match lastWaiting s.nq.entries with
    | none => s
    | some v =>
      if e.cls < v.cls then s.setEntries (insertEntry e (removeOrder v.order s.nq.entries)) else s

/-- R149: a post for the key of the in-flight entry becomes, or is folded into, the held post. -/
def State.hold (s : State) (e : Entry) : State :=
  s.mapNq fun q =>
    { q with held :=
        match q.held with
        | none => some e
        | some h => some (foldNotice h e.notice e.cls) }

/-- R146–R148: the entries with the folded entry `y` for `x`: in the place of `x` where the class is kept,
else in the place the new class gives it (log 40: also where post times are in no order). -/
def refoldEntry (x y : Entry) (es : List Entry) : List Entry :=
  if y.cls = x.cls then es.map fun e => if e.order = x.order then y else e
  else insertEntry y (removeOrder x.order es)

/-- R145–R148: a post folded into the waiting entry `x`, which a redundant level withdraws. -/
def State.refold (s : State) (x e : Entry) : State :=
  let y := foldNotice x e.notice e.cls
  s.setEntries
    (if s.redundant y.notice then removeOrder x.order s.nq.entries else refoldEntry x y s.nq.entries)

/-- R145: a SIGHTING or ZONE post taken in JOINING is dropped. -/
def State.dropsPost (s : State) (n : Notice) : Bool :=
  decide (s.scs.station = .joining) && decide (n ≠ .presence)

/-- R145: one post, by what the queue holds for its key. -/
def State.takePost (s : State) (e : Entry) : State :=
  if s.dropsPost e.notice then s
  else
    match s.entryOf e.key with
    | none => s.place e
    | some x => if x.inFlight then s.hold e else s.refold x e

/-- R145: a post of `n` with class `cls`, taken now, and QLC's following of it. -/
def State.post (s : State) (cls : Nat) (n : Notice) : State :=
  let e : Entry :=
    { notice := n, cls := cls, postTime := s.now, steps := s.nq.steps, order := s.nq.nextOrder, attempts := 0
      inFlight := false }
  ((s.mapNq fun q => { q with nextOrder := q.nextOrder + 1 }).takePost e).follow

/-- R149: the held post is released into the queue as a post. -/
def State.releaseHeld (s : State) : State :=
  match s.nq.held with
  | none => s
  | some h => (s.mapNq fun q => { q with held := none }).takePost h

/-- R149: at a success, a held ZONE equal to the level just announced is dropped. -/
def State.releaseAfterSuccess (s : State) : State :=
  match s.nq.held with
  | none => s
  | some h =>
    if s.redundant h.notice then s.mapNq fun q => { q with held := none } else s.releaseHeld

/-! ### Leaving flight (R130–R132, R154–R156) -/

/-- R122, R130: when the line becomes IDLE once this station stops driving: 4 character times on, where it
was driving. -/
def Qlc.idleAfterDriving (q : Qlc) : Nat := if q.inFlight.isSome then idleAfterStop else q.idleIn

/-- QLC stops driving: QDE released, no entry in flight. -/
def State.stopDriving (s : State) : State :=
  s.mapQlc fun q =>
    { q with
      idleIn := q.idleAfterDriving, qde := false, inFlight := none, frame := [], ownRead := none }

/-- The entry of key `k` as `f` leaves it. -/
def State.changeEntry (s : State) (k : Key) (f : Entry → Entry) : State :=
  s.setEntries (s.nq.entries.map fun e => if e.key = k then f e else e)

def State.removeEntry (s : State) (k : Key) : State :=
  s.setEntries (s.nq.entries.filter fun e => decide (e.key ≠ k))

/-- R132, R156: a frame in flight is abandoned and its entry returns, its attempts unchanged. -/
def State.abandon (s : State) : State :=
  match s.qlc.inFlight with
  | none => s
  | some k =>
    (s.stopDriving.changeEntry k fun e => { e with inFlight := false }).releaseHeld

/-! ### Fault events (R187, R189) -/

/-- R187, R189, R132: a fault event sets its flag and marks the epoch not quiet; DUPLICATE_STATION
newly set abandons a frame in flight; a flag newly set while the health arm is set posts a PRESENCE
and clears the arm. The abandoned entry returns before the arm's PRESENCE is posted (log 36). -/
def State.faultEvent (s : State) (f : FaultFlag) : State :=
  let was := s.scs.faults.get f
  let s1 := s.mapScs fun c => { c with faults := c.faults.set f, quietEpoch := false }
  if was then s1
  else
    let s2 := if f = .duplicateStation then s1.abandon.follow else s1
    if s2.scs.healthArm then (s2.mapScs fun c => { c with healthArm := false }).post 4 .presence
    else s2

end Sys2Proof.Machine
end

