-- ==== Sys2Proof/Machine/Tracks.lean ====
section
/-! DEFINITION. The Track Table (4. The Track Table): admission, confirmation, eviction, fading and
removal, and the association test that GDU and NQ share (R46–R48, R151). -/

namespace Sys2Proof.Machine

/-! ### Finding and changing slots (R59, R76) -/

def State.trackOf (s : State) (id : TrackId) : Option Track :=
  s.tracks.findSome? fun o =>
    match o with
    | some t => if t.id = id then some t else none
    | none => none

def liveTracks (slots : List (Option Track)) : List Track := slots.filterMap id

/-- The slot that holds `id` now holds `t`. -/
def replaceTrack (slots : List (Option Track)) (id : TrackId) (t : Option Track) : List (Option Track) :=
  slots.map fun o =>
    match o with
    | some x => if x.id = id then t else some x
    | none => none

/-- R64, R76: the lowest-numbered free slot takes `t`; none when every slot is taken. -/
def fillFree : List (Option Track) → Track → Option (List (Option Track))
  | [], _ => none
  | none :: rest, t => some (some t :: rest)
  | some x :: rest, t => (fillFree rest t).map (some x :: ·)

/-! ### Sighting lists (R60, R70) -/

/-- R60: ascending sighting time, ties in ascending station number. -/
def Sighting.before (a b : Sighting) : Bool :=
  earlier a.time b.time || (decide (a.time = b.time) && decide (a.station < b.station))

/-- R60: the sighting goes before the first one that it precedes (log 40: also where the times are in no
order). -/
def insertSighting (x : Sighting) : List Sighting → List Sighting
  | [] => [x]
  | y :: ys => if x.before y then x :: y :: ys else y :: insertSighting x ys

/-- R70: a list brought to 7 loses the entry second in order. -/
def overflow (l : List Sighting) : List Sighting :=
  if Config.maxSightings < l.length then l.eraseIdx 1 else l

def sightingOf (l : List Sighting) (station : Nat) : Option Sighting :=
  l.find? fun x => decide (x.station = station)

def withoutStation (l : List Sighting) (station : Nat) : List Sighting :=
  l.filter fun x => decide (x.station ≠ station)

/-- R60, R70: the sighting placed by its time, in place of any the station held. -/
def placeSighting (l : List Sighting) (x : Sighting) : List Sighting :=
  overflow (insertSighting x (withoutStation l x.station))

/-- R65, R68: the greater of two dust indexes, the present one when one is absent. -/
def maxDust : Option Nat → Option Nat → Option Nat
  | none, b => b
  | some a, none => some a
  | some a, some b => some (max a b)

/-! ### Derived fields, confirmation, completion (R61, R71, R72) -/

def peakSpeedOf (l : List Sighting) : Nat := l.foldl (fun m x => max m x.speed) 0

def peakDustOf (l : List Sighting) : Option Nat := l.foldl (fun m x => maxDust m x.dust) none

/-- R61: the fields that follow the list as it stands. -/
def Track.derive (t : Track) : Track :=
  { t with
    peakSpeed := peakSpeedOf t.sightings
    peakDust := peakDustOf t.sightings
    w := t.sightings.any (·.w) }

/-- R72: the confirmation rule, for the sightings of a list. -/
def confirms (m : Memory) (l : List Sighting) : Bool :=
  decide ((site m).confirmCount ≤ l.countP (·.trusted)) ||
    l.any fun x =>
      x.trusted && decide (rankOf m x.station = some 0) &&
        match x.dust with
        | some d => decide ((site m).pileDust ≤ d)
        | none => false

/-- R62, R71 step 3: the state an admission leaves. -/
def Track.settle (t : Track) : Track :=
  match t.state with
  | .fading => { t with state := if t.confirmed then .confirmed else .opened, close := none }
  | .opened => { t with state := if t.confirmed then .confirmed else .opened }
  | .confirmed => t

/-- R71 steps 1 to 4. -/
def Track.complete (m : Memory) (t : Track) : Track :=
  let t1 := t.derive
  let t2 := { t1 with confirmed := t1.confirmed || confirms m t1.sightings }
  let t3 := t2.settle
  { t3 with fade := t3.last + seconds (site m).fadeTime }

/-! ### Admission requests (R63–R69) -/

/-- R63: an admission request; `updateTime` counts for an UPDATE. -/
structure Request where
  form : Form
  id : TrackId
  sector : Nat
  sighting : Sighting
  updateTime : Time
  deriving DecidableEq, Repr

/-- R64: the track a NEW creates. -/
def Request.newTrack (r : Request) : Track where
  id := r.id
  state := .opened
  confirmed := false
  placeholder := false
  onset := some r.sighting.time
  sector := r.sector
  sightings := [r.sighting]
  peakSpeed := 0
  peakDust := none
  w := false
  last := r.sighting.time
  fade := r.sighting.time
  close := none

/-- R69: the placeholder a JOIN or UPDATE creates. -/
def Request.placeholderTrack (r : Request) : Track :=
  { r.newTrack with
    placeholder := true
    onset := none
    last := if r.form = .update then laterTime r.sighting.time r.updateTime else r.sighting.time }

/-- R65: a NEW combined with the origin's sighting that an UPDATE brought before it. -/
def combineNew (held new : Sighting) : Sighting :=
  { new with
    speed := max held.speed new.speed
    dust := maxDust held.dust new.dust
    w := held.w || new.w
    updates := max held.updates new.updates }

/-- R65: a NEW fills a placeholder. -/
def Track.fill (t : Track) (r : Request) : Track :=
  let x :=
    match sightingOf t.sightings r.sighting.station with
    | some h => combineNew h r.sighting
    | none => r.sighting
  { t with
    onset := some r.sighting.time
    sector := r.sector
    placeholder := false
    sightings := placeSighting t.sightings x
    last := laterTime t.last r.sighting.time }

/-- R67: a JOIN inserts or replaces its station's sighting. -/
def Track.joined (t : Track) (x : Sighting) : Track :=
  { t with sightings := placeSighting t.sightings x, last := laterTime t.last x.time }

/-- R68: an UPDATE's values raise the sighting held. -/
def raiseSighting (held x : Sighting) : Sighting :=
  { held with
    speed := max held.speed x.speed
    dust := maxDust held.dust x.dust
    w := held.w || x.w
    updates := max held.updates x.updates }

/-- R68: an UPDATE raises its station's sighting, or is admitted as a JOIN when there is none; its
update time enters last sighting time (log 21). -/
def Track.updated (t : Track) (r : Request) : Track :=
  match sightingOf t.sightings r.sighting.station with
  | some _ =>
    { t with
      sightings := t.sightings.map fun x =>
        if x.station = r.sighting.station then raiseSighting x r.sighting else x
      last := laterTime t.last r.updateTime }
  | none =>
    let j := t.joined r.sighting
    { j with last := laterTime j.last r.updateTime }

/-! ### Eviction (R76–R78) -/

/-- Track ids in order: first by origin station, then by sequence (Conventions). -/
def idLower (a b : TrackId) : Bool :=
  decide (a.origin < b.origin ∨ (a.origin = b.origin ∧ a.seq < b.seq))

/-- R77: `a` has the older last sighting time, or an equal one and the lower id. -/
def Track.older (a b : Track) : Bool :=
  earlier a.last b.last || (decide (a.last = b.last) && idLower a.id b.id)

/-- R77: the oldest of the tracks, compared from the last one to the first (log 40: also where the times are
in no order). -/
def oldest : List Track → Option Track
  | [] => none
  | t :: ts =>
    match oldest ts with
    | none => some t
    | some u => if u.older t then some u else some t

/-- R77: the victim for a request whose sighting time is `time`. -/
def victim (ts : List Track) (time : Time) : Option Track :=
  match oldest (ts.filter fun t => decide (t.state = .fading)) with
  | some t => some t
  | none =>
    match oldest (ts.filter fun t => decide (t.state = .opened) && t.placeholder) with
    | some t => some t
    | none =>
      match oldest (ts.filter fun t => decide (t.state = .opened) && !t.placeholder) with
      | some t => if earlier t.last time then some t else none
      | none => none

/-- R76: the slots with a new track in the lowest free slot, or in the victim's slot. -/
def createIn (slots : List (Option Track)) (t : Track) (time : Time) : Option (List (Option Track)) :=
  match fillFree slots t with
  | some l => some l
  | none =>
    match victim (liveTracks slots) time with
    | some v => some (replaceTrack slots v.id (some t))
    | none => none

/-! ### One admission (R63) -/

/-- TRT's answer to a request (R63). -/
inductive Answer where
  | admitted
  | duplicate
  | full
  deriving DecidableEq, Repr

/-- R63: the slots a request leaves and TRT's answer. -/
def admitSlots (m : Memory) (slots : List (Option Track)) (held : Option Track) (r : Request) :
    Answer × List (Option Track) :=
  match held with
  | some t =>
    match r.form with
    | .new =>
      if t.placeholder then (.admitted, replaceTrack slots r.id (some ((t.fill r).complete m)))
      else (.duplicate, slots)
    | .join => (.admitted, replaceTrack slots r.id (some ((t.joined r.sighting).complete m)))
    | .update => (.admitted, replaceTrack slots r.id (some ((t.updated r).complete m)))
  | none =>
    let t := if r.form = .new then r.newTrack else r.placeholderTrack
    match createIn slots (t.complete m) r.sighting.time with
    | some l => (.admitted, l)
    | none => (.full, slots)

/-! ### Deadlines (R73, R74) -/

/-- R73: the fade deadline of an OPEN or CONFIRMED track has passed. -/
def Track.fadeDue (t : Track) (now : Time) : Bool :=
  decide (t.state ≠ .fading) && reached now t.fade

/-- R74: the close deadline of a FADING track has passed. -/
def Track.closeDue (t : Track) (now : Time) : Bool :=
  decide (t.state = .fading) &&
    match t.close with
    | some d => reached now d
    | none => false

/-- R73: the track FADING, with its close deadline `closeTime` seconds from now. -/
def Track.faded (t : Track) (now : Time) (closeTime : Nat) : Track :=
  { t with state := .fading, close := some (now + seconds closeTime) }

/-- R73: the fade. -/
def State.fadeTrack (s : State) (id : TrackId) : State :=
  match s.trackOf id with
  | none => s
  | some t =>
    if t.fadeDue s.now then
      let t' := t.faded s.now (site s.tables).closeTime
      (s.setTracks (replaceTrack s.tracks id (some t'))).raise .evaluation
    else s

/-- R74: the removal. -/
def State.closeTrack (s : State) (id : TrackId) : State :=
  match s.trackOf id with
  | none => s
  | some t =>
    if t.closeDue s.now then
      (s.setTracks (replaceTrack s.tracks id none)).raise .evaluation
    else s

/-- R73–R75: a track once the deadlines of it that common time has reached have passed, and how many have. -/
def Track.pass (t : Track) (now : Time) (closeTime : Nat) : Option Track × Nat :=
  let t' := if t.fadeDue now then t.faded now closeTime else t
  let n := if t.fadeDue now then 1 else 0
  if t'.closeDue now then (none, n + 1) else (some t', n)

/-- R73–R75: every slot so, slot by slot. -/
def passTracks (slots : List (Option Track)) (now : Time) (closeTime : Nat) : List (Option Track) :=
  slots.map fun o => o.bind fun t => (t.pass now closeTime).1

/-- R73, R74: the fade and close deadlines of the tracks that have passed so, each one table change. -/
def passedCount (slots : List (Option Track)) (now : Time) (closeTime : Nat) : Nat :=
  ((liveTracks slots).map fun t => (t.pass now closeTime).2).sum

/-- R75: every fade and close deadline that common time has reached passes. -/
def State.passTrackDeadlines (s : State) : State :=
  let c := (site s.tables).closeTime
  { s with
    tracks := passTracks s.tracks s.now c
    raised := s.raised ++ List.replicate (passedCount s.tracks s.now c) .evaluation }

/-! ### One request (R63, R71) -/

/-- R63, R71: one request, a claim on the table; an admission raises one table change event, and an
admitted peer NEW then triggers the pre-check. A fade deadline that it sets and that common time has already
reached passes just after the claim. -/
def State.admission (s : State) (r : Request) (peer : Bool) : Answer × State :=
  match admitSlots s.tables s.tracks (s.trackOf r.id) r with
  | (.admitted, l) =>
    let s1 := (s.setTracks l).raise .evaluation
    let s2 := if peer && decide (r.form = .new) then s1.raise (.preCheck r.id) else s1
    (.admitted, s2.fadeTrack r.id)
  | (.duplicate, _) => (.duplicate, s)
  | (.full, _) => (.full, s)

/-! ### The association test (R47) -/

/-- R47: the deviation of a sighting of a track of sector `sector` and peak speed `speed` from an own
onset at `t`, when it fits. -/
def fitDeviation (m : Memory) (own sector speed : Nat) (x : Sighting) (t : Time) : Option Nat :=
  match firstLane m x.station own sector with
  | none => none
  | some l =>
    let tr := transit l.distance speed
    let expected := x.time + ms tr
    let tolerance := max ((site m).minimum * 1000) (tr * (site m).tolerance / 100)
    let deviation := (timeDiff t expected).natAbs
    if !earlier t x.time && decide (deviation ≤ tolerance) then some deviation else none

/-- The lesser of two deviations, the present one when one is absent. -/
def leastOf : Option Nat → Option Nat → Option Nat
  | none, b => b
  | some a, none => some a
  | some a, some b => some (min a b)

/-- R47: the deviation of a track: the least among its fitting sightings, none when none fits. -/
def trackDeviation (m : Memory) (own : Nat) (t : Track) (onset : Time) : Option Nat :=
  (t.sightings.map fun x => fitDeviation m own t.sector t.peakSpeed x onset).foldl leastOf none

/-- R46: a candidate for association. -/
def Track.candidate (t : Track) (own sector : Nat) : Bool :=
  sectorNear t.sector sector && (sightingOf t.sightings own).isNone

/-- R48: of the fits, the least deviation, between equal ones the lower id. -/
def bestFit : List (TrackId × Nat) → Option (TrackId × Nat)
  | [] => none
  | x :: xs =>
    match bestFit xs with
    | none => some x
    | some y => if y.2 < x.2 ∨ (y.2 = x.2 ∧ idLower y.1 x.1 = true) then some y else some x

/-- R46–R48: the track an own onset joins, if any. -/
def State.associate (s : State) (sector : Nat) (onset : Time) : Option TrackId :=
  let fits := ((liveTracks s.tracks).filter fun t => t.candidate s.scs.own sector).filterMap fun t =>
    (trackDeviation s.tables s.scs.own t onset).map fun d => (t.id, d)
  (bestFit fits).map (·.1)

/-! ### The rewrite (R79) and the pre-check (R151, R152) -/

/-- R79: Q's only sighting, when it is the own one. -/
def Track.onlyOwn (t : Track) (own : Nat) : Option Sighting :=
  match t.sightings with
  | [x] => if x.station = own then some x else none
  | _ => none

/-- R152: the episode whose track was Q follows P. -/
def Gdu.follow (g : Gdu) (p q : TrackId) : Gdu :=
  match g.mode with
  | .episode e => if e.track = some q then { g with mode := .episode { e with track := some p } } else g
  | .notReady => g
  | .quiet => g
  | .arming => g

/-- R79: the rewrite of the own provisional track Q into the peer's track P: DONE, or none (REFUSED). R71: a
fade deadline that it sets and that has already been reached passes just after the claim. -/
def State.rewrite (s : State) (p q : TrackId) : Option State :=
  match s.trackOf p, s.trackOf q with
  | some tp, some tq =>
    match tq.onlyOwn s.scs.own with
    | some x =>
      if (sightingOf tp.sightings s.scs.own).isNone then
        let tp' := (tp.joined x).complete s.tables
        let slots := replaceTrack (replaceTrack s.tracks p (some tp')) q none
        some ((((s.setTracks slots).mapGdu fun g => g.follow p q).raise .evaluation).fadeTrack p)
      else none
    | none => none
  | _, _ => none

/-- R151: the deviation with which an entry is a rewrite candidate for the peer's track `tp`. -/
def State.candidateEntry (s : State) (tp : Track) (e : Entry) : Option (TrackId × Nat) :=
  match e.notice with
  | .sighting n =>
    if n.form = .new ∧ e.inFlight = false then
      match s.trackOf n.id with
      | some tq =>
        if (tq.onlyOwn s.scs.own).isSome && sectorNear tq.sector tp.sector &&
            (sightingOf tp.sightings s.scs.own).isNone then
          (trackDeviation s.tables s.scs.own tp n.time).map fun d => (n.id, d)
        else none
      | none => none
    else none
  | .presence => none
  | .zone _ _ => none

/-- R152: the rewritten entry: a class 3 JOIN of P; all else kept. -/
def Entry.rewritten (e : Entry) (p : TrackId) : Entry :=
  match e.notice with
  | .sighting n => { e with notice := .sighting { n with form := .join, id := p }, cls := 3 }
  | .presence => e
  | .zone _ _ => e

/-- R151, R152: the pre-check for the peer's track `p`. -/
def State.preCheck (s : State) (p : TrackId) : State :=
  match s.trackOf p with
  | none => s
  | some tp =>
    if (s.entryOf (.sighting p)).isSome then s
    else
      match bestFit (s.nq.entries.filterMap fun e => s.candidateEntry tp e) with
      | none => s
      | some (q, _) =>
        match s.rewrite p q, s.entryOf (.sighting q) with
        | some s', some e =>
          (s'.setEntries (insertEntry (e.rewritten p) (removeOrder e.order s.nq.entries))).follow
        | _, _ => s

end Sys2Proof.Machine
end

