-- ==== Sys2Proof/Machine/Detector.lean ====
section
/-! DEFINITION. The Gust Detector (3. Gust Onsets and Sightings): onset and end of an episode, the
local sighting and its notice, and the updates of an episode. -/

namespace Sys2Proof.Machine

/-- R19: the sample record SFE hands GDU. -/
structure SampleRecord where
  stamp : Time
  ready : Bool
  g3 : Nat
  s60 : Option Nat
  sector : Nat
  dust : Option Nat
  deriving DecidableEq, Repr

/-- R42: gust floor and onset ratio of the own entry; 0 when it is absent. -/
def State.gustFloor (s : State) : Nat :=
  if stationPresent s.tables s.scs.own then (stationRec s.tables s.scs.own).gustFloor else 0

def State.onsetRatio (s : State) : Nat :=
  if stationPresent s.tables s.scs.own then (stationRec s.tables s.scs.own).onsetRatio else 0

/-- R42: the sample qualifies. -/
def State.qualifies (s : State) (r : SampleRecord) : Bool :=
  decide (s.gustFloor ≤ r.g3) && decide (s.onsetRatio * r.s60.getD 0 ≤ 16 * r.g3)

/-- R43, R44: the episode record at the onset sample. -/
def State.newEpisode (s : State) (r : SampleRecord) : Episode where
  reporting := decide (s.scs.station = .operating)
  track := none
  recorded := false
  onset := r.stamp
  sector := r.sector
  peakSpeed := r.g3
  peakDust := r.dust
  w := s.sfe.latch
  trusted := s.prt.trusted
  lastSpeed := r.g3
  lastDust := r.dust
  updates := 0
  quiet := 0

/-- R49, R55: the own sighting as the episode record gives it. -/
def Episode.sighting (e : Episode) (own : Nat) : Sighting where
  station := own
  time := e.onset
  speed := e.peakSpeed
  dust := e.peakDust
  w := e.w
  trusted := e.trusted
  updates := e.updates

/-- R49, R55: the payload of the episode's SIGHTING notice. -/
def Episode.notice (e : Episode) (id : TrackId) (form : Form) : Notice :=
  .sighting
    { id := id
      form := form
      w := e.w
      trusted := e.trusted
      time := e.onset
      sector := e.sector
      speed := e.peakSpeed
      dust := e.peakDust
      updates := e.updates }

def Episode.request (e : Episode) (own : Nat) (id : TrackId) (form : Form) (updateTime : Time) : Request where
  form := form
  id := id
  sector := e.sector
  sighting := e.sighting own
  updateTime := updateTime

def State.setMode (s : State) (m : Mode) : State := s.mapGdu fun g => { g with mode := m }

/-- R51: the first value upward from `v`, within `fuel` values, that no own track holds. -/
def freshSeq (slots : List (Option Track)) (own : Nat) : Nat → Nat → Option Nat
  | 0, _ => none
  | fuel + 1, v =>
    if (liveTracks slots).any fun t => decide (t.id = { origin := own, seq := v }) then
      freshSeq slots own fuel ((v + 1) % 256)
    else some v

/-- R50: a JOIN of track `id`. -/
def State.localJoin (s : State) (e : Episode) (id : TrackId) : State :=
  let s1 := (s.admission (e.request s.scs.own id .join e.onset) false).2
  (s1.setMode (.episode { e with track := some id, recorded := true })).post 3 (e.notice id .join)

/-- R51, R52, R78: a NEW with a fresh sequence, recorded or not. -/
def State.localNew (s : State) (e : Episode) : State :=
  match freshSeq s.tracks s.scs.own 256 (s.gdu.nextSeq % 256) with
  | none => s.setMode (.episode e)
  | some v =>
    let id : TrackId := { origin := s.scs.own, seq := v }
    let a := s.admission (e.request s.scs.own id .new e.onset) false
    let e' := { e with track := some id, recorded := decide (a.1 = .admitted) }
    ((a.2.mapGdu fun _ => { mode := .episode e', nextSeq := (v + 1) % 256 })).post 1 (e.notice id .new)

/-- R43, R44, R48: the onset: the episode record, the claim on the suppression latch, and for a
reported episode the association and its JOIN or NEW. -/
def State.onset (s : State) (r : SampleRecord) : State :=
  let e := s.newEpisode r
  let s1 := s.mapSfe fun f => { f with latch := false }
  if e.reporting then
    match s1.associate e.sector e.onset with
    | some id => s1.localJoin e id
    | none => s1.localNew e
  else s1.setMode (.episode e)

/-- R53: the peaks after a sample. -/
def Episode.follow (e : Episode) (r : SampleRecord) (quiet : Nat) : Episode :=
  { e with
    quiet := quiet
    peakSpeed := max e.peakSpeed r.g3
    peakDust := maxDust e.peakDust r.dust }

/-- R54: a marked rise of a peak over the value last reported. -/
def markedRise (step peak last : Nat) : Bool :=
  decide (last < peak) && decide (last * (100 + step) ≤ peak * 100)

/-- R54: the update fires. -/
def Episode.fires (e : Episode) (step : Nat) : Bool :=
  markedRise step e.peakSpeed e.lastSpeed ||
    match e.peakDust, e.lastDust with
    | some _, none => true
    | some d, some l => markedRise step d l
    | none, _ => false

/-- R55, R56: the update at the sample with stamp `u`: dropped when the track is gone. A track of the same
id that was removed and created again counts as the episode's track (log 34). -/
def State.update (s : State) (e : Episode) (u : Time) : State :=
  match e.track with
  | none => s.setMode (.episode e)
  | some id =>
    if (s.trackOf id).isSome then
      let e1 := { e with w := e.w || s.sfe.latch, updates := e.updates + 1 }
      let s1 := (s.admission (e1.request s.scs.own id .update u) false).2
      let s2 := s1.post 3 (e1.notice id .update)
      s2.setMode (.episode { e1 with lastSpeed := e1.peakSpeed, lastDust := e1.peakDust })
    else s.setMode (.episode { e with recorded := false })

/-- R45, R53, R54: a sample taken in EPISODE. -/
def State.episodeSample (s : State) (e : Episode) (r : SampleRecord) : State :=
  let quiet := if s.qualifies r then 0 else e.quiet + 1
  if Config.quietRunEnd ≤ quiet then s.setMode .quiet
  else
    let e' := e.follow r quiet
    if e'.reporting && e'.recorded && decide (e'.updates < 3) && e'.fires (site s.tables).updateStep then
      s.update e' r.stamp
    else s.setMode (.episode e')

/-- R41–R45: GDU's sample event. -/
def State.gduSample (s : State) (r : SampleRecord) : State :=
  if r.ready then
    match s.gdu.mode with
    | .notReady => s.setMode (if s.qualifies r then .arming else .quiet)
    | .quiet => s.setMode (if s.qualifies r then .arming else .quiet)
    | .arming => if s.qualifies r then s.onset r else s.setMode .quiet
    | .episode e => s.episodeSample e r
  else s.setMode .notReady

end Sys2Proof.Machine
end

