-- ==== Sys2Proof/Machine/Sensor.lean ====
section
/-! DEFINITION. The Sensor Front End (2. Sensor Inputs): the sample, the pulse lines, the filtered
lines, and channel service. Commands SAMPLE_EVENT, PULSE_EDGE, SUPPR_TRANSITION, ACK_TRANSITION. -/

namespace Sys2Proof.Machine

/-! ### The parts of a sample (R19–R36) -/

/-- The own station entry (R5): the factors are read as held even where it is absent (R21, R25); the
SUPPR active level and the ACK edge of an absent entry have no effect and read as in cleared tables, low
and falling (R4, log 38). -/
def State.ownRec (s : State) : StationRec :=
  let r := stationRec s.tables s.scs.own
  { r with supprHigh := r.present && r.supprHigh, ackRising := r.present && r.ackRising }

/-- R21: the three-second speed. -/
def gustSpeed (window : List Nat) (factor : Nat) : Nat := min ((newest 12 window).sum * factor / 3) 600

/-- R22: the sixty-second mean. -/
def meanSpeed (window : List Nat) (factor : Nat) : Nat := min (window.sum * factor / 60) 600

/-- R20–R22: the ANEMO count is closed and, in service, entered; out of service the last count shown stays
(log 33). -/
def Sfe.sampleAnemo (f : Sfe) (factor : Nat) : Sfe :=
  if f.anemoIn then
    let window := newest Config.anemoWindow (f.anemoWindow ++ [f.anemoCount])
    let warming := min (f.warming + 1) Config.anemoWindow
    { f with
      lastAnemo := f.anemoCount
      anemoCount := 0
      anemoWindow := window
      warming := warming
      g3 := gustSpeed window factor
      s60 := if warming = Config.anemoWindow then some (meanSpeed window factor) else none }
  else { f with anemoCount := 0 }

/-- R23: the Gray code of the vane lines. -/
def grayDecode (v : BitVec 4) : Nat :=
  let b3 := v.getLsbD 3
  let b2 := v.getLsbD 2 ^^ b3
  let b1 := v.getLsbD 1 ^^ b2
  let b0 := v.getLsbD 0 ^^ b1
  bitOf b3 3 + bitOf b2 2 + bitOf b1 1 + bitOf b0 0

/-- R36: the distance of two sectors the short way round. -/
def sectorDistance (a b : Nat) : Nat :=
  let d := (a + 16 - b) % 16
  min d (16 - d)

/-- R24: the accepted sector, candidate and run count after a reading. -/
def Sfe.acceptSector (f : Sfe) (raw : Nat) : Sfe :=
  if !f.sectorTaken then { f with accepted := raw, sectorTaken := true, run := 0 }
  else if raw = f.accepted then { f with run := 0 }
  else
    let run := if f.candidate = some raw then f.run + 1 else 1
    if 4 ≤ run then { f with candidate := some raw, accepted := raw, run := 0 }
    else { f with candidate := some raw, run := run }

/-- R23, R24, R36: an in-service VANE sample. -/
def Sfe.sampleVane (f : Sfe) (raw : Nat) : Sfe :=
  if f.vaneIn then
    let large :=
      match f.vanePrev with
      | some p => decide (3 ≤ sectorDistance raw p)
      | none => false
    let g := f.acceptSector raw
    { g with
      raw := raw
      vanePrev := some raw
      vaneRecord := newest Config.vaneWindow (f.vaneRecord ++ [large]) }
  else f

/-- R30: the lamp-low run. -/
def Sfe.sampleLamp (f : Sfe) (lamp : Bool) : Sfe :=
  if f.lampIn then
    { f with lampLow := if lamp then 0 else min (f.lampLow + 1) Config.lampLowCount }
  else f

/-- R20, R25: the DUST count is closed and, in service, entered; out of service the last count shown stays
(log 33). -/
def Sfe.sampleDust (f : Sfe) (factor : Nat) : Sfe :=
  if f.dustIn then
    let window := newest Config.dustWindow (f.dustWindow ++ [f.dustCount])
    { f with
      lastDust := f.dustCount
      dustCount := 0
      dustWindow := window
      dustNumber := min (window.sum * factor / 16) 1023 }
  else { f with dustCount := 0 }

/-- R27, R32: the level test of the sample, live or held. -/
def Sfe.sampleSuppr (f : Sfe) (active : Bool) : Sfe :=
  if f.supprLevel = active then { f with latch := true } else f

/-- R35: the median of the peers' announced S60, none when no PRESENT peer announces one. -/
def State.peerMedian (s : State) : Option Nat :=
  let values := (List.range 32).filterMap fun k =>
    match s.rosterOf (k + 1) with
    | some e =>
      if e.state = .present then (e.announced.bind (·.s60)).map fun v => (v : Int) else none
    | none => none
  if values.isEmpty then none else some (median values).toNat

/-- R35: the silent run, while ANEMO is in service; `count` is this sample's ANEMO count. -/
def Sfe.sampleSilent (f : Sfe) (median : Option Nat) : Sfe :=
  if f.anemoIn then
    match median with
    | some v =>
      if f.lastAnemo = 0 ∧ Config.silentMedian ≤ v then
        { f with silentRun := min (f.silentRun + 1) Config.silentCount }
      else { f with silentRun := 0 }
    | none => { f with silentRun := 0 }
  else f

/-- R19: SFE after a sample event. -/
def State.sampleSfe (s : State) (vane : BitVec 4) (lamp : Bool) : Sfe :=
  let r := s.ownRec
  let f := ((((s.sfe.sampleAnemo r.speedFactor).sampleVane (grayDecode vane)).sampleLamp lamp).sampleDust
    r.dustFactor).sampleSuppr r.supprHigh
  { f.sampleSilent s.peerMedian with phase := 0 }

/-- R19: the sample record. -/
def State.sampleRecord (s : State) : SampleRecord where
  stamp := s.now
  ready := s.sfe.anemoIn && decide (s.sfe.warming = Config.anemoWindow)
  g3 := s.sfe.g3
  s60 := s.sfe.s60
  sector := s.sfe.accepted
  dust := s.sfe.dustIndex

/-- R37: the fault event of a condition that has changed from false to true. -/
def State.risingFault (s : State) (before after : Bool) (f : FaultFlag) : State :=
  if !before && after then s.faultEvent f else s

/-- R19: one sample event: SFE's updates, the fault events, GDU's sample. -/
def State.sample (s : State) (vane : BitVec 4) (lamp : Bool) : State :=
  let f := s.sampleSfe vane lamp
  let s1 := { s with pins := { s.pins with vane := vane, lamp := lamp }, sfe := f }
  let s2 := s1.risingFault s.sfe.anemoSilent f.anemoSilent .anemoSilent
  let s3 := s2.risingFault s.sfe.vaneErratic f.vaneErratic .vaneErratic
  let s4 := s3.risingFault s.sfe.dustLamp f.dustLamp .dustLamp
  s4.gduSample s4.sampleRecord

/-- SAMPLE_EVENT (R19). -/
def execSampleEvent (vane : BitVec 4) (lamp : Bool) (s : State) : Answered :=
  .next ((s.takeEvent isSampleEvent).unlessHeld fun s => s.sample vane lamp)

/-! ### Pulses (R20) -/

/-- R20: one pulse, in service; the count stays at 255. -/
def Sfe.pulse (f : Sfe) : PulseLine → Sfe
  | .anemo => if f.anemoIn then { f with anemoCount := min (f.anemoCount + 1) 255 } else f
  | .dust => if f.dustIn then { f with dustCount := min (f.dustCount + 1) 255 } else f

/-- PULSE_EDGE (R20). -/
def execPulseEdge (line : PulseLine) (s : State) : Answered :=
  .next (s.unlessHeld fun s => s.mapSfe fun f => f.pulse line)

/-! ### The filtered lines (R26–R29) -/

/-- R27: a recognised SUPPR change, in service; a transition into the active level sets the latch. -/
def Sfe.supprChange (f : Sfe) (level active : Bool) : Sfe :=
  if f.supprIn && decide (level ≠ f.supprLevel) then
    { f with supprLevel := level, supprFilter := 0, latch := f.latch || decide (level = active) }
  else f

/-- SUPPR_TRANSITION (R26, R27), against the active level that the working tables hold now, also between a
commit of it and the next sample (log 41). -/
def execSupprTransition (level : Bool) (s : State) : Answered :=
  .next ((s.takeEvent isSupprTransition).unlessHeld fun s =>
    { s with
      pins := { s.pins with suppr := level }
      sfe := s.sfe.supprChange level s.ownRec.supprHigh })

/-- R29: the ACK pending flag is set; setting it is an event at ZEV. -/
def State.setAckPending (s : State) : State :=
  if s.sfe.ackPending then s
  else (s.mapSfe fun f => { f with ackPending := true }).raise .ackEvaluation

/-- R29: a recognised ACK change, in service; one in the configured direction sets the flag: the edge is the
one that the working tables hold now, also between a commit of it and the next sample (log 41). -/
def State.ackChange (s : State) (level : Bool) : State :=
  if s.sfe.ackIn && decide (level ≠ s.sfe.ackLevel) then
    let s1 := s.mapSfe fun f => { f with ackLevel := level, ackFilter := 0 }
    if level = s.ownRec.ackRising then s1.setAckPending else s1
  else s

/-- ACK_TRANSITION (R26, R29). -/
def execAckTransition (level : Bool) (s : State) : Answered :=
  .next ((s.takeEvent isAckTransition).unlessHeld fun s =>
    { s with pins := { s.pins with ack := level } }.ackChange level)

/-! ### Channel service (R31–R34) -/

def Sfe.inService (f : Sfe) : Channel → Bool
  | .anemo => f.anemoIn
  | .vane => f.vaneIn
  | .dust => f.dustIn
  | .suppr => f.supprIn
  | .ack => f.ackIn
  | .lamp => f.lampIn

/-- R31, R32: the channel goes out of service; what it held stays as it stands. -/
def Sfe.takeOut (f : Sfe) (c : Channel) (lampLevel : Bool) : Sfe :=
  if f.inService c then
    match c with
    | .anemo => { f with anemoIn := false }
    | .vane => { f with vaneIn := false }
    | .dust => { f with dustIn := false }
    | .suppr => { f with supprIn := false, supprFilter := 0 }
    | .ack => { f with ackIn := false, ackFilter := 0 }
    | .lamp => { f with lampIn := false, lampHeld := lampLevel }
  else f

/-- R33, R34: the return of a channel, for every channel but ACK's pending flag; VANE's raw sector (log 32)
and the last counts (log 33) stay until the next sample. -/
def Sfe.bringIn (f : Sfe) (c : Channel) (pins : Pins) (supprActive : Bool) : Sfe :=
  if f.inService c then f
  else
    match c with
    | .anemo => { f with anemoIn := true, anemoWindow := [], warming := 0, g3 := 0, s60 := none, silentRun := 0 }
    | .vane => { f with vaneIn := true, candidate := none, run := 0, vanePrev := none, vaneRecord := [] }
    | .dust => { f with dustIn := true }
    | .suppr =>
      { f with
        supprIn := true
        supprLevel := pins.suppr
        supprFilter := 0
        latch := f.latch || (decide (f.supprLevel ≠ supprActive) && decide (pins.suppr = supprActive)) }
    | .ack => { f with ackIn := true, ackLevel := pins.ack, ackFilter := 0 }
    | .lamp =>
      { f with
        lampIn := true
        lampLow := if pins.lamp then 0 else if f.dustLamp then Config.lampLowCount else 0 }

/-- R31: CHANNEL OUT at SFE. -/
def State.channelOut (s : State) (c : Channel) : State :=
  s.mapSfe fun f => f.takeOut c s.pins.lamp

/-- R33, R34: CHANNEL IN at SFE; a held and a live ACK level that differ in the configured direction
set the ACK pending flag. -/
def State.channelIn (s : State) (c : Channel) : State :=
  let s1 := s.mapSfe fun f => f.bringIn c s.pins s.ownRec.supprHigh
  if decide (c = .ack) && !s.sfe.ackIn && decide (s.pins.ack ≠ s.sfe.ackLevel) &&
      decide (s.pins.ack = s.ownRec.ackRising) then
    s1.setAckPending
  else s1

/-- R38: SFE after a restart: the recognised levels are kept, with the filter, but for a line that
was out of service, whose live level is taken. -/
def Sfe.restarted (f : Sfe) (pins : Pins) : Sfe :=
  let suppr := if f.supprIn then f.supprLevel else pins.suppr
  let ack := if f.ackIn then f.ackLevel else pins.ack
  { Sfe.fresh suppr ack with
    supprFilter := if f.supprIn then f.supprFilter else 0
    ackFilter := if f.ackIn then f.ackFilter else 0 }

end Sys2Proof.Machine
end

