-- ==== Sys2Proof/Machine/Zones.lean ====
section
/-! DEFINITION. The Zone Evaluator (5. Arrival Prediction, 6. Zone Warning Levels and Outputs):
prediction and demand, mirror contributions, the level machine, ZONE notices, reports, and the
setting of the zone states. Commands TICK, EVALUATION, ACK_EVALUATION. -/

namespace Sys2Proof.Machine

/-! ### Prediction, support, demand (R87–R95) -/

/-- R87–R89: the ETA of the prediction an approach entry gives for a track, none when it gives none. -/
def approachEta (t : Track) (now : Time) (a : Approach) : Option Int :=
  if hasSector a.mask t.sector then
    (sightingOf t.sightings a.source).map fun x =>
      timeDiff (x.time + ms (transit a.distance t.peakSpeed)) now
  else none

/-- R88: the latest counts, the one whose difference from now is greatest. -/
def greatestOf : Option Int → Option Int → Option Int
  | none, b => b
  | some a, none => some a
  | some a, some b => some (max a b)

/-- R88, R89: the ETA of a track for zone `i`. -/
def trackEta (m : Memory) (i : Nat) (t : Track) (now : Time) : Option Int :=
  ((approaches m i).map (approachEta t now)).foldl greatestOf none

/-- R91: the predicates; a code past 15 is refused by R12 and never holds (log 20). -/
def predicate (code : Nat) (g d w c : Bool) : Bool :=
  match code with
  | 1 => g
  | 2 => d
  | 3 => g && d
  | 4 => g || d
  | 5 => g && !w
  | 6 => d && !w
  | 7 => g && d && !w
  | 8 => (g || d) && !w
  | 9 => c && g
  | 10 => c && d
  | 11 => c && g && d
  | 12 => d || (g && !w)
  | 13 => g && (d || !w)
  | 14 => c && (g || d)
  | 15 => true
  | _ => false

/-- R91: the codes in whose predicate D appears. -/
def usesD (code : Nat) : Bool :=
  match code with
  | 2 => true
  | 3 => true
  | 4 => true
  | 6 => true
  | 7 => true
  | 8 => true
  | 10 => true
  | 11 => true
  | 12 => true
  | 13 => true
  | 14 => true
  | _ => false

/-- R90: flag G. -/
def flagG (z : ZoneRec) (t : Track) : Bool := decide (z.gustLimit ≤ t.peakSpeed)

/-- R90, R92: flag D; with peak dust absent it is taken as holding where the predicate uses D. -/
def flagD (z : ZoneRec) (t : Track) : Bool :=
  match t.peakDust with
  | some d => decide (z.dustLimit ≤ d)
  | none => usesD z.predicate

/-- R91: the zone's predicate for a track. -/
def predicateHolds (z : ZoneRec) (t : Track) : Bool :=
  predicate z.predicate (flagG z t) (flagD z t) t.w t.confirmed

/-- R94: rank authority of a track for a zone. -/
def rankAuthority (m : Memory) (z : ZoneRec) (t : Track) : Bool :=
  t.sightings.any fun x =>
    match rankOf m x.station with
    | some r => decide (r ≤ z.alarmRank)
    | none => false

/-- R93: the level by the leads. -/
def leadLevel (z : ZoneRec) (eta : Int) (confirmed authority : Bool) : Option Level :=
  if eta ≤ (z.alarmLead * 1000 : Nat) ∧ confirmed = true ∧ authority = true then some .alarm
  else if eta ≤ (z.warnLead * 1000 : Nat) ∧ confirmed = true then some .warn
  else if eta ≤ (z.watchLead * 1000 : Nat) then some .watch
  else none

/-- R92: the cap at WARN of a track whose dust is absent, where the predicate uses D. -/
def dustCap (z : ZoneRec) (t : Track) (l : Level) : Level :=
  if t.peakDust.isNone && usesD z.predicate && decide (l = .alarm) then .warn else l

/-- R89: the track supports the zone at this ETA. -/
def supports (z : ZoneRec) (eta : Int) : Bool := decide (-((z.holdTime * 1000 : Nat) : Int) ≤ eta)

/-- R93: the level a track calls for in zone `i`, none when it calls for none. -/
def call (m : Memory) (i : Nat) (t : Track) (now : Time) : Option Level :=
  let z := zoneRec m i
  match trackEta m i t now with
  | none => none
  | some eta =>
    if supports z eta && predicateHolds z t then
      (leadLevel z eta t.confirmed (rankAuthority m z t)).map (dustCap z t)
    else none

/-- R84, R95: the demand of zone `i`: the greatest call of any track; CLEAR for a zone that no track
raises. -/
def demand (m : Memory) (i : Nat) (ts : List Track) (now : Time) : Level :=
  if (zoneRec m i).kind.computes then
    ts.foldl (fun l t => match call m i t now with | some c => l.max c | none => l) .clear
  else .clear

/-! ### Mirror contribution (R106–R111) -/

/-- R106: the source of a zone is GOOD. -/
def State.sourceGood (s : State) (source : Nat) : Bool :=
  decide (s.rosterState (zoneRec s.tables source).owner = some .present) &&
    match s.receivedOf source with
    | some r => r.received && decide (timeDiff s.now r.receipt ≤ Config.silenceMs)
    | none => false

/-- R107–R110: contribution, source state and LOST deadline after the source state is decided. -/
def ZoneState.settleMirror (z : ZoneState) (good : Bool) (reported : Level) (now : Time) (hold : Nat) :
    ZoneState :=
  if good then { z with contribution := reported, lost := false, lostDeadline := none }
  else if !z.lost then { z with lost := true, lostDeadline := some (now + seconds hold) }
  else
    match z.lostDeadline with
    | none => z
    | some d =>
      if reached now d then
        if Level.watch.toNat < z.contribution.toNat then
          let c := z.contribution.drop
          { z with
            contribution := c
            lostDeadline := if Level.watch.toNat < c.toNat then some (now + seconds hold) else none }
        else { z with lostDeadline := none }
      else z

/-- R106–R111: the mirrored part of a zone state, at an evaluation. -/
def State.mirrorPart (s : State) (z : ZoneState) : ZoneState :=
  let d := zoneRec s.tables z.zone
  if d.kind.mirrors then
    let good := s.sourceGood d.source
    let r := s.receivedOf d.source
    let z' := z.settleMirror good ((r.map (·.level)).getD .clear) s.now d.holdTime
    { z' with degraded := !good || (r.map (·.lostMark)).getD false }
  else z

/-! ### The level machine (R100–R102) -/

/-- R100: the level input by kind; for COMPUTED (and a kind R12 refuses, log 20) the demand. For COMBINED
the greater of demand and contribution is taken before the hold, which then holds both parts (log 31). -/
def levelInput (k : ZoneKind) (demand contribution : Level) : Level :=
  match k with
  | .computed => demand
  | .mirror => contribution
  | .combined => demand.max contribution
  | .invalid => demand

/-- R101, R102, R112: one run of the level machine. -/
def ZoneState.levelStep (z : ZoneState) (input : Level) (now : Time) (hold : Nat) : ZoneState :=
  if z.level.toNat < input.toNat then { z with level := input, hold := none, acked := false }
  else if input = z.level then { z with hold := none }
  else
    match z.hold with
    | none => { z with hold := some (now + seconds hold) }
    | some d =>
      if reached now d then
        let l := z.level.drop
        { z with
          level := l
          hold := if input.toNat < l.toNat then some (now + seconds hold) else none
          acked := z.acked && decide (Level.warn.toNat ≤ l.toNat) }
      else z

/-! ### The evaluation (R84, R100, R117) -/

/-- R84, R100: one zone's state after an evaluation in JOINING or OPERATING. -/
def State.evalZone (s : State) (z : ZoneState) : ZoneState :=
  let d := zoneRec s.tables z.zone
  let z1 := { z with demand := demand s.tables z.zone (liveTracks s.tracks) s.now }
  let z2 := s.mirrorPart z1
  z2.levelStep (levelInput d.kind z2.demand z2.contribution) s.now d.holdTime

/-- R117: the class of a ZONE notice for a change of level. -/
def zoneClass (before after : Level) : Nat :=
  if before.toNat < after.toNat then (if after = .alarm then 0 else 2) else 4

/-- R117: in OPERATING, one ZONE notice for each zone whose level changed, in ascending order. -/
def State.postChanges (s : State) : List ZoneState → List ZoneState → State
  | b :: bs, a :: as =>
    let s' := if b.level = a.level then s else s.post (zoneClass b.level a.level) (.zone a.zone a.level)
    s'.postChanges bs as
  | _, _ => s

/-- R84: an evaluation: demand of every owned zone, mirror parts, level machines, ZONE notices; in
WINDOW, SETUP and PROGRAMMING only the demand, CLEAR. -/
def State.evaluate (s : State) : State :=
  if s.active then
    let zones := s.zev.zones.map s.evalZone
    let s1 := s.mapZev fun v => { v with zones := zones }
    if s.scs.station = .operating then s1.postChanges s.zev.zones zones else s1
  else s.mapZev fun v => { v with zones := v.zones.map fun z => { z with demand := .clear } }

/-- R112: every owned zone then at WARN or ALARM is acknowledged. -/
def State.acknowledge (s : State) : State :=
  s.mapZev fun v =>
    { v with zones := v.zones.map fun z =>
        { z with acked := z.acked || decide (Level.warn.toNat ≤ z.level.toNat) } }

/-- TICK (R86). -/
def execTick (s : State) : Answered :=
  .next ((s.takeEvent fun e => decide (e = .tick)).unlessHeld fun s => s.evaluate)

/-- EVALUATION (R84, R85). -/
def execEvaluation (s : State) : Answered :=
  .next ((s.takeEvent fun e => decide (e = .evaluation)).unlessHeld fun s => s.evaluate)

/-- R85, R112: the flag is taken and cleared, the evaluation made, the levels acknowledged; without
the flag there is nothing to take. -/
def State.ackEvaluation (s : State) : State :=
  if s.sfe.ackPending then
    ((s.mapSfe fun f => { f with ackPending := false }).evaluate).acknowledge
  else s

/-- ACK_EVALUATION (R112). -/
def execAckEvaluation (s : State) : Answered :=
  .next ((s.takeEvent fun e => decide (e = .ackEvaluation)).unlessHeld fun s => s.ackEvaluation)

/-! ### Reports (R105) -/

/-- R105: taking a report of zone `zone`; `mark` is the LOST mark a PRESENCE pair carries. -/
def State.takeReport (s : State) (zone : Nat) (level : Level) (mark : Option Bool) : State :=
  if s.active then
    match s.receivedOf zone with
    | none => s
    | some r =>
      let r' : Received :=
        { zone := zone
          received := true
          level := level
          lostMark := mark.getD r.lostMark
          receipt := s.now }
      let s1 := s.mapZev fun v =>
        { v with received := v.received.map fun x => if x.zone = zone then r' else x }
      if r'.level = r.level ∧ r'.lostMark = r.lostMark then s1 else s1.raise .evaluation
  else s

/-- R105: the pairs of an accepted PRESENCE, taken when the sender owns the zone and is PRESENT. -/
def State.takePairs (s : State) (sender : Nat) : List ZonePair → State
  | [] => s
  | p :: ps =>
    let s' :=
      if zoneDescribed s.tables p.zone && decide ((zoneRec s.tables p.zone).owner = sender) &&
          decide (s.rosterState sender = some .present) then
        s.takeReport p.zone p.level (some p.lostMark)
      else s
    s'.takePairs sender ps

/-! ### Setting the zone states (R99, R104, R121) -/

/-- R121: the zone state of an owned zone as it is set. -/
def zoneSet (m : Memory) (i : Nat) : ZoneState :=
  let d := zoneRec m i
  { zone := i
    pair := d.pair
    demand := .clear
    level := .clear
    hold := none
    acked := false
    contribution := .clear
    lost := d.kind.mirrors
    lostDeadline := none
    degraded := d.kind.mirrors
    announced := .clear }

/-- R104: a record as it is set up. -/
def receivedSet (zone : Nat) : Received :=
  { zone := zone, received := false, level := .clear, lostMark := false, receipt := 0 }

/-- R104: the distinct mirror sources of the owned MIRROR and COMBINED zones. -/
def mirrorSources (m : Memory) (own : Nat) : List Nat :=
  (List.range 48).filter fun k =>
    (ownedZones m own).any fun i => (zoneRec m i).kind.mirrors && decide ((zoneRec m i).source = k)

/-- R99, R104, R121: the owned zone set, the bindings and the received records, set from tables. -/
def zevSet (m : Memory) (own : Nat) : Zev where
  zones := (ownedZones m own).map (zoneSet m)
  received := (mirrorSources m own).map receivedSet

/-! ### Entry into OPERATING and the zone list (R118, R120) -/

/-- R118: a ZONE notice for each owned zone above CLEAR. -/
def State.postLevels (s : State) : List ZoneState → State
  | [] => s
  | z :: zs =>
    let s' := if z.level = .clear then s else s.post (zoneClass .clear z.level) (.zone z.zone z.level)
    s'.postLevels zs

/-- R120: the zone list of a PRESENCE. -/
def State.zoneList (s : State) : List ZonePair :=
  if s.scs.station = .operating then
    s.zev.zones.map fun z => { zone := z.zone, level := z.level, lostMark := z.degraded }
  else []

/-- R103: with a step of common time, every running hold and LOST deadline starts again. -/
def ZoneState.restartTiming (m : Memory) (now : Time) (z : ZoneState) : ZoneState :=
  let d := now + seconds (zoneRec m z.zone).holdTime
  { z with hold := z.hold.map fun _ => d, lostDeadline := z.lostDeadline.map fun _ => d }

end Sys2Proof.Machine
end

