-- ==== Sys2Proof/Machine/Clock.lean ====
section
/-! DEFINITION. Common time and the roster (9. Peer Roster and Common Time): counting, gains and
withholds, the epoch boundary, heard notices, PRESENCE taken, silence, the schedule.
Commands EPOCH_BOUNDARY, SLEW_STEP, TRIM_STEP, SCHEDULE_POINT, SILENCE_DEADLINE. -/

namespace Sys2Proof.Machine

/-! ### Roster entries and silence (R162, R163) -/

def State.setRoster (s : State) (n : Nat) (e : RosterEntry) : State :=
  s.mapPrt fun p => { p with roster := p.roster.set (n - 1) e }

/-- R163: an entry written, and the roster change event when its state changes. -/
def State.writeRoster (s : State) (n : Nat) (old new : RosterEntry) : State :=
  let s1 := s.setRoster n new
  if old.state = new.state then s1 else s1.rosterChanged n

/-- R162: the silence deadline of an entry has passed. -/
def RosterEntry.silenceDue (e : RosterEntry) (now : Time) : Bool :=
  decide (e.state = .present ∨ e.state = .mismatch) &&
    match e.deadline with
    | some d => reached now d
    | none => false

/-- R162. -/
def State.silence (s : State) (n : Nat) : State :=
  match s.rosterOf n with
  | none => s
  | some e =>
    if e.silenceDue s.now then s.writeRoster n e { e with state := .silent, deadline := none } else s

/-! ### Deadlines reached in a claim (R75, R162) -/

/-- R75, R162: every stored deadline that common time has reached passes: those of tracks in ascending slot,
then those of silence in ascending station (log 35). -/
def State.passDeadlines (s : State) : State :=
  (List.range 32).foldl (fun s k => s.silence (k + 1)) s.passTrackDeadlines

/-! ### Counting common time (R86, R164, R166, R172) -/

/-- The events of common time reaching its present value: a tick at each multiple of 1000, an epoch
boundary at each multiple of 8000, the station's schedule point; each waits as an event (log 42). -/
def State.raiseAtCount (s : State) : State :=
  let t := s.now.toNat
  let s1 := if t % Config.tickMs = 0 then s.raise .tick else s
  let s2 := if t % Config.epochMs = 0 then s1.raise .epochBoundary else s1
  if t % Config.epochMs = s.scs.own * Config.scheduleMs then s2.raise .schedulePoint else s2

/-- R164, R75: one count, and the deadlines that it reaches. While RST is held low common time runs and nothing
else is taken (R176). -/
def State.count (s : State) : State :=
  (s.mapPrt fun p => { p with time := p.time + 1 }).unlessHeld fun s => s.raiseAtCount.passDeadlines

/-- R164: a gain is a further count at once; a withhold takes the count of the running millisecond. -/
def State.gainOrWithhold (s : State) (gain : Bool) : State :=
  if gain then s.count else s.mapPrt fun p => { p with withheld := p.withheld + 1 }

/-- R168: one of the slew's gains or withholds is spent. -/
def State.slewStep (s : State) : State :=
  if s.prt.slew = 0 then s
  else
    let up := decide (0 < s.prt.slew)
    (s.mapPrt fun p =>
      { p with slew := if up then p.slew - 1 else p.slew + 1, slewPhase := 0 }).gainOrWithhold up

/-- R169: ms of the oscillator between two of the trim's gains or withholds. -/
def trimInterval (trim : Int) : Nat := 65536 / trim.natAbs

/-- R169: the trim phase counter has reached its interval. -/
def State.trimStep (s : State) : State :=
  if s.prt.trim = 0 then s
  else (s.mapPrt fun p => { p with trimPhase := 0 }).gainOrWithhold (decide (0 < s.prt.trim))

/-- SLEW_STEP (R168); taken while RST is held low too (log 8). -/
def execSlewStep (s : State) : Answered := .next s.slewStep

/-- TRIM_STEP (R169); taken while RST is held low too (log 8). -/
def execTrimStep (s : State) : Answered := .next s.trimStep

/-! ### The epoch boundary (R165–R170) -/

/-- R166: the kept offsets. -/
def keptOffsets (l : List Offset) : List Int :=
  if l.any fun o => decide (o.lock ≠ .free) then
    (l.filter fun o => decide (o.lock ≠ .free)).map (·.offset)
  else l.map (·.offset)

/-- R166: the correction, none for an epoch with no offsets. -/
def correction (l : List Offset) : Option Int :=
  match keptOffsets l with
  | [] => none
  | kept => some (median (0 :: kept))

/-- R168: the clamp of a slewed correction. -/
def clampSlew (c : Int) : Int := max (-8) (min 8 c)

/-- R169: the trim after a slewed correction. -/
def adjustTrim (trim c : Int) : Int :=
  if 2 < c then (if trim < Config.trimMax then trim + 1 else trim)
  else if c < -2 then (if -(Config.trimMax : Int) < trim then trim - 1 else trim)
  else trim

/-- R170: lock state and count after a boundary. -/
def lockAfter (count : Nat) : Option Int → Lock × Nat
  | none => (.free, 0)
  | some c =>
    let n := if c.natAbs ≤ 4 then min (count + 1) 3 else 0
    (if n = 3 then .locked else .pulling, n)

/-- R172: ms of common time from `t` to the next schedule point later than `t`. -/
def untilSchedule (own : Nat) (t : Time) : Nat :=
  let p := own * Config.scheduleMs
  let m := t.toNat % Config.epochMs
  if m < p then p - m else min (Config.epochMs - m) (2 ^ 32 - t.toNat) + p

/-- R172: a step from `t` by `c` gives a schedule point: a forward step that passes or reaches one, or any
step whose stepped value is one. -/
def stepPasses (own : Nat) (t : Time) (c : Int) : Bool :=
  (decide (0 < c) && decide ((untilSchedule own t : Int) ≤ c)) ||
    decide ((t + BitVec.ofInt 32 c).toNat % Config.epochMs = own * Config.scheduleMs)

/-- R86, R103, R172: what is taken just after a step, before any event that already waits (log 4). -/
def stepEvents (passed : Bool) : List Instr := if passed then [.tick, .schedulePoint] else [.tick]

/-- R167, R103, R86, R172: the JOINING step: common time, ZEV's deadlines, NQ's count of steps (R144), the
tick of the step, and the schedule point it has passed or reached. -/
def State.stepTime (s : State) (c : Int) : State :=
  let now := s.now + BitVec.ofInt 32 c
  let s1 := (s.mapPrt fun p => { p with time := now }).mapZev fun v =>
    { v with zones := v.zones.map fun z => z.restartTiming s.tables now }
  let s2 := s1.mapNq fun q => { q with steps := q.steps + 1 }
  { s2 with raised := stepEvents (stepPasses s.scs.own s.now c) ++ s2.raised }

/-- R168, R169: a correction applied by slew, with the trim's adjustment and TIME_RAIL. -/
def State.slewTime (s : State) (c : Int) : State :=
  let trim := adjustTrim s.prt.trim c
  let s1 := s.mapPrt fun p =>
    { p with
      slew := clampSlew c
      slewPhase := 0
      trim := trim
      trimPhase := if trim = p.trim then p.trimPhase else 0 }
  if !s.prt.timeRail && s1.prt.timeRail then s1.faultEvent .timeRail else s1

/-- R166: the correction recorded and applied by step or slew. -/
def State.applyCorrection (s : State) (c : Int) : State :=
  let s1 := s.mapPrt fun p => { p with lastCorr := some c }
  if s.scs.station = .joining ∧ Config.stepMs < c.natAbs then s1.stepTime c else s1.slewTime c

/-- R118, R184: the entry into OPERATING. -/
def State.enterOperating (s : State) : State :=
  let s1 := s.mapScs fun c => { c with station := .operating }
  (s1.postLevels s1.zev.zones).follow

/-- R189: at a boundary notice the arm is set from the quiet-epoch mark, then the mark from the four
conditions. -/
def State.rearm (s : State) : State :=
  s.mapScs fun c =>
    { c with healthArm := c.healthArm || c.quietEpoch, quietEpoch := !s.conditionPresent }

/-- R184: the boundary notice at SCS. -/
def State.boundaryNotice (s : State) : State :=
  let s1 :=
    if s.scs.station = .joining then
      let s' := s.mapScs fun c => { c with joining := c.joining + 1 }
      if 2 ≤ s'.scs.joining then s'.enterOperating else s'
    else s
  s1.rearm

/-- R166: an epoch boundary, one claim, and its notice. -/
def State.epochBoundary (s : State) : State :=
  let corr := correction s.prt.offsets
  let s1 :=
    match corr with
    | some c => s.applyCorrection c
    | none => s
  let after := lockAfter s.prt.lockCount corr
  (s1.mapPrt fun p => { p with offsets := [], lock := after.1, lockCount := after.2 }).boundaryNotice

/-- R75, R162: where the boundary has stepped common time, the deadlines reached pass just after it. -/
def State.boundaryTaken (s : State) : State :=
  let t := s.epochBoundary
  if t.now = s.now then t else t.passDeadlines

/-- EPOCH_BOUNDARY (R166). -/
def execEpochBoundary (s : State) : Answered :=
  .next ((s.takeEvent fun e => decide (e = .epochBoundary)).unlessHeld State.boundaryTaken)

/-- R172: in JOINING and OPERATING a PRESENCE of class 4 is posted. -/
def State.schedulePoint (s : State) : State := if s.active then s.post 4 .presence else s

/-- SCHEDULE_POINT (R172). -/
def execSchedulePoint (s : State) : Answered :=
  .next ((s.takeEvent fun e => decide (e = .schedulePoint)).unlessHeld State.schedulePoint)

/-! ### Heard notices and PRESENCE (R160, R161, R165) -/

/-- R160: where a heard notice moves an entry. -/
def heardState : RosterState → RosterState
  | .absent => .present
  | .present => .present
  | .silent => .present
  | .mismatch => .mismatch
  | .self => .self

/-- R160: a heard notice. -/
def State.heard (s : State) (n : Nat) : State :=
  match s.rosterOf n with
  | none => s
  | some e =>
    if e.state = .self then s
    else
      s.writeRoster n e
        { e with
          state := heardState e.state
          lastHeard := s.now
          deadline := some (s.now + ms Config.silenceMs) }

/-- R165: an offset collected, in place of one from the same sender. -/
def State.collect (s : State) (n : Nat) (offset : Int) (lock : Lock) : State :=
  if s.active && decide (s.rosterState n = some .present) then
    s.mapPrt fun p =>
      { p with offsets := (p.offsets.filter fun o => decide (o.station ≠ n)) ++
          [{ station := n, offset := offset, lock := lock }] }
  else s

/-- R161: an accepted PRESENCE: state by checksum, announced fields, offset; then its zone list goes
to ZEV (R105). -/
def State.takePresence (s : State) (n : Nat) (a : Announced) (stamp arrival : Time) : State :=
  match s.rosterOf n with
  | none => s
  | some e =>
    if e.state = .self then s
    else
      let e' := { e with
        state := if a.checksum = s.scs.checksum then .present else .mismatch
        announced := some a }
      ((s.writeRoster n e e').collect n (timeDiff stamp arrival) a.lock).takePairs n a.pairs

/-- SILENCE_DEADLINE (R162). -/
def execSilenceDeadline (station : Nat) (s : State) : Answered :=
  .next ((s.takeEvent fun e => decide (e = .silenceDeadline station)).unlessHeld fun s => s.silence station)

/-- FADE_DEADLINE (R73). -/
def execFadeDeadline (id : TrackId) (s : State) : Answered :=
  .next ((s.takeEvent fun e => decide (e = .fadeDeadline id)).unlessHeld fun s => s.fadeTrack id)

/-- CLOSE_DEADLINE (R74). -/
def execCloseDeadline (id : TrackId) (s : State) : Answered :=
  .next ((s.takeEvent fun e => decide (e = .closeDeadline id)).unlessHeld fun s => s.closeTrack id)

/-- PRE_CHECK (R151). -/
def execPreCheck (id : TrackId) (s : State) : Answered :=
  .next ((s.takeEvent fun e => decide (e = .preCheck id)).unlessHeld fun s => s.preCheck id)

end Sys2Proof.Machine
end

