-- ==== Sys2Proof/Machine/Line.lean ====
section
/-! DEFINITION. The Quay Line Controller (7. Quay Line Access and Reception): access, transmission
and its outcomes, reception and dispatch. Commands LINE_BUSY, LINE_IDLE, HOLDOFF_EXPIRY,
TRANSMIT_SUCCESS, COLLISION, FRAME_RECEIVED. -/

namespace Sys2Proof.Machine

/-! ### The checks of a frame (R133, R135–R141) -/

/-- R133: the rotation count advances. -/
def State.advanceRotation (s : State) : State :=
  s.mapQlc fun q => { q with rotation := (q.rotation + 1) % 32 }

/-- R141: the last-reject record of a rejected frame; bytes that did not arrive count as 0. -/
def State.reject (s : State) (cause : Nat) (frame : List Byte) : State :=
  s.mapQlc fun q =>
    { q with rejectCause := cause, rejectSender := frame.getD 2 0, rejectKind := frame.getD 0 0 }

/-- R123: the characters of the frame, its tail apart. -/
def frameChars (chars : List Byte) : List Byte := chars.take (byteAt chars 1 + 2)

/-- R123: the characters the length byte gives have arrived: the frame is not truncated. -/
def frameWhole (chars : List Byte) : Bool :=
  decide (2 ≤ chars.length ∧ byteAt chars 1 + 2 ≤ chars.length)

/-- R136: check 1 passes: not truncated, CRC bytes present and right. -/
def checkOk (frame : List Byte) : Bool :=
  let len := byteAt frame 1
  decide (7 ≤ len) && decide (frame.length = len + 2) &&
    decide (crc16 (frame.take len) = BitVec.ofNat 16 (pairAt frame len))

/-- R136: check 2 passes for this kind. -/
def formOk (k : FrameKind) (frame : List Byte) : Bool :=
  let len := byteAt frame 1
  k.lengthOk len && (decide (k ≠ .presence) || decide (byteAt frame 15 = (len - 16) / 2))

/-- R138: check 7 fails: the sighting time is outside the allowed window. -/
def State.stale (s : State) (t : Time) : Bool :=
  let r := site s.tables
  earlier t (s.now - seconds (r.fadeTime + r.closeTime)) || earlier (s.now + ms Config.futureMs) t

/-- R140: a SIGHTING handed to TRT, its answer settling checks 11 and 12. -/
def State.dispatchSighting (s : State) (frame : List Byte) (sender : Nat) (p : SightingNotice) : State :=
  let stamp := timeAt frame 3
  let r : Request :=
    { form := p.form
      id := p.id
      sector := p.sector
      sighting :=
        { station := sender, time := p.time, speed := p.speed, dust := p.dust, w := p.w,
          trusted := p.trusted, updates := p.updates }
      updateTime := if earlier s.now stamp then s.now else stamp }
  match s.admission r true with
  | (.admitted, s') => s'
  | (.duplicate, s') => s'.reject 11 frame
  | (.full, s') => s'.reject 12 frame

/-- R138–R140: checks 6 to 12 and the dispatch of a frame that has passed checks 1 to 5. -/
def State.dispatch (s : State) (k : FrameKind) (frame : List Byte) (arrival : Time) : State :=
  let sender := byteAt frame 2
  match k with
  | .presence =>
    match readPresence frame with
    | none => s.reject 6 frame
    | some a => s.takePresence sender a (timeAt frame 3) arrival
  | .sighting =>
    match readSighting frame with
    | none => s.reject 6 frame
    | some p => if s.stale p.time then s.reject 7 frame else s.dispatchSighting frame sender p
  | .zone =>
    let zone := byteAt frame 7
    match Level.ofNat? (byteAt frame 8) with
    | none => s.reject 6 frame
    | some level =>
      if (site s.tables).zoneCount ≤ zone then s.reject 8 frame
      else if !zonePresent s.tables zone then s.reject 9 frame
      else if (zoneRec s.tables zone).owner ≠ sender then s.reject 10 frame
      else s.takeReport zone level none

/-- R137: checks 3 to 5 of a frame of kind `k`, with the heard notice before check 4. -/
def State.checkSender (s : State) (k : FrameKind) (frame : List Byte) (arrival : Time) : State :=
  let sender := byteAt frame 2
  if !stationPresent s.tables sender then s.reject 3 frame
  else
    let s1 := s.heard sender
    if sender = s.scs.own then (s1.reject 4 frame).faultEvent .duplicateStation
    else if k ≠ .presence ∧ s1.rosterState sender = some .mismatch then s1.reject 5 frame
    else s1.dispatch k frame arrival

/-- R133, R135: the checks of a frame in order, the rotation count advancing after check 1. -/
def State.receive (s : State) (frame : List Byte) (arrival : Time) : State :=
  if !checkOk frame then s.reject 1 frame
  else
    let s1 := s.advanceRotation
    match frameKind (byteAt frame 0) with
    | none => s1.reject 2 frame
    | some k => if formOk k frame then s1.checkSender k frame arrival else s1.reject 2 frame

/-- R134, R135: the frame of the record has ended: its checks and its dispatch, in the same step (log 11). -/
def State.endFrame (s : State) (r : RxFrame) : State :=
  (s.mapQlc fun q => { q with rx := none }).receive (frameChars r.chars) r.arrival

/-! ### Reception (R134) -/

/-- R122: a character has been read: its stop bit begins the wait for IDLE again. -/
def State.charsRead (s : State) : State :=
  (s.mapQlc fun q => { q with idleIn := idleAfterStop }).dropEvents isLineIdle

/-- R123, R134: the characters `chars` of the frame being read, whose record is `r`: it ends when the
characters its length byte gives have been read, and else is read on. -/
def State.readChars (s : State) (r : RxFrame) (chars : List Byte) : State :=
  let r' : RxFrame := { r with chars := r.chars ++ chars }
  if frameWhole r'.chars then s.charsRead.endFrame r'
  else if chars.isEmpty then s
  else s.charsRead.mapQlc fun q => { q with rx := some r' }

/-- R123, R134: characters have been received: those of the frame being read; with none being read they form
no frame (log 11). -/
def State.frameReceived (s : State) (chars : List Byte) : State :=
  match s.qlc.rx with
  | some r => s.readChars r chars
  | none => s

/-- FRAME_RECEIVED (R135). -/
def execFrameReceived (chars : List Byte) (s : State) : Answered :=
  .next (s.unlessHeld fun s => s.frameReceived chars)

/-! ### The line (R122, R123, R125, R127, R134) -/

/-- R122, R127, R134: a start bit on an IDLE line: BUSY, a running holdoff stops, and a frame is read
whose arrival time is recorded. On a BUSY line it keeps the line BUSY for another character. -/
def State.lineBusy (s : State) : State :=
  if s.qlc.busy then
    (s.mapQlc fun q => { q with idleIn := idleAfterStart }).dropEvents isLineIdle
  else
    s.stopHoldoff.mapQlc fun q =>
      { q with busy := true, idleIn := idleAfterStart, rx := some { arrival := s.now, chars := [] } }

/-- LINE_BUSY (R127). -/
def execLineBusy (s : State) : Answered := .next (s.unlessHeld State.lineBusy)

/-- R123, R134: a frame still being read as the line becomes IDLE ends there, truncated, and is checked. -/
def State.endTruncated (s : State) : State :=
  match s.qlc.rx with
  | some r => s.endFrame r
  | none => s

/-- R122: the line becomes IDLE: quiet time restarts. -/
def Qlc.becomeIdle (q : Qlc) : Qlc := { q with busy := false, quiet := 0, quietFrac := 0 }

/-- R122, R123, R125, R133: the line becomes IDLE, unless this station is driving it: a frame still being
read ends before it, quiet time restarts, and a holdoff begins when an eligible notice is queued. -/
def State.lineIdle (s : State) : State :=
  if s.qlc.busy && s.qlc.inFlight.isNone then
    (s.stopHoldoff.endTruncated.mapQlc Qlc.becomeIdle).follow
  else s

/-- LINE_IDLE (R122). -/
def execLineIdle (s : State) : Answered :=
  .next ((s.takeEvent isLineIdle).unlessHeld State.lineIdle)

/-! ### Transmission (R129, R153) -/

/-- R153: the PRESENCE payload, assembled from the other blocks as they stand. -/
def State.presencePayload (s : State) : Announced where
  operating := decide (s.scs.station = .operating)
  lock := s.prt.lock
  trusted := s.prt.trusted
  checksum := s.scs.checksum
  trim := s.prt.trim
  faults := s.scs.faults.bits
  s60 := s.sfe.s60
  pairs := s.zoneList

/-- R129, R192: the frame of a notice started now. -/
def State.frameOf (s : State) (n : Notice) : List Byte :=
  match n with
  | .presence => frameBytes .presence s.scs.own s.now (announcedBytes s.presencePayload)
  | .sighting p => frameBytes .sighting s.scs.own s.now (sightingBytes p)
  | .zone z l => frameBytes .zone s.scs.own s.now [byteOf z, byteOf l.toNat]

/-- R129, R153: transmission of the entry `e` starts. -/
def State.startSending (s : State) (e : Entry) : State :=
  (s.stopHoldoff.changeEntry e.key fun x => { x with inFlight := true }).mapQlc fun q =>
    { q with
      busy := true
      inFlight := some e.key
      qde := true
      frame := s.frameOf e.notice
      ownRead := some { arrival := s.now, chars := [] } }

/-- R128, R129: quiet time has reached `quiet`; the holdoff runs out when that is its length. -/
def State.holdoffExpiry (s : State) (quiet : Nat) : State :=
  match s.qlc.holdoff with
  | none => s
  | some h =>
    let s1 := s.mapQlc fun q => { q with quiet := min (max q.quiet quiet) Config.quietMax }
    if h.length ≤ s1.qlc.quiet then
      match s1.entryOf h.selected with
      | some e => s1.startSending e
      | none => s1
    else s1

/-- HOLDOFF_EXPIRY (R129). -/
def execHoldoffExpiry (quiet : Nat) (s : State) : Answered :=
  .next ((s.takeEvent isHoldoffExpiry).unlessHeld fun s => s.holdoffExpiry quiet)

/-! ### Outcomes of a transmission (R130, R131, R133, R154, R155) -/

/-- R119, R154: a ZONE frame sent in full sets the zone's last announced level. -/
def State.setAnnounced (s : State) (n : Notice) : State :=
  match n with
  | .zone z l =>
    s.mapZev fun v =>
      { v with zones := v.zones.map fun x => if x.zone = z then { x with announced := l } else x }
  | .presence => s
  | .sighting _ => s

/-- R130, R154: the frame in flight has been sent in full. -/
def State.transmitSuccess (s : State) : State :=
  match s.qlc.inFlight with
  | none => s
  | some k =>
    let s1 :=
      match s.entryOf k with
      | some e => s.stopDriving.setAnnounced e.notice
      | none => s.stopDriving
    ((s1.removeEntry k).releaseAfterSuccess).advanceRotation.follow

/-- TRANSMIT_SUCCESS (R130). -/
def execTransmitSuccess (s : State) : Answered := .next (s.unlessHeld State.transmitSuccess)

/-- R131: after stopping, the frame is read on as a received one, from its own start bit, with the
characters read back. -/
def State.readOn (s : State) : State := s.mapQlc fun q => { q with rx := q.ownRead <|> q.rx }

/-- R123, R131: a frame whose last character was the mismatched one has ended. -/
def State.endWhole (s : State) : State :=
  match s.qlc.rx with
  | some r => if frameWhole r.chars then s.endFrame r else s
  | none => s

/-- R131, R155: a collision of the entry `k` in flight: it returns, or at its sixth collision is
discarded and LINE_TROUBLE raised. -/
def State.collided (s : State) (k : Key) : State :=
  let s1 := s.readOn.stopDriving
  match s.entryOf k with
  | none => s1
  | some e =>
    if e.attempts < 5 then
      (s1.changeEntry k fun x => { x with attempts := x.attempts + 1, inFlight := false }).releaseHeld.follow
    else ((s1.removeEntry k).releaseHeld.faultEvent .lineTrouble).follow

/-- R131: a collision of the entry in flight. -/
def State.collision (s : State) : State :=
  match s.qlc.inFlight with
  | none => s
  | some k => (s.collided k).endWhole

/-- COLLISION (R131). -/
def execCollision (s : State) : Answered := .next (s.unlessHeld State.collision)

end Sys2Proof.Machine
end

