-- ==== Sys2Proof/Machine/Resets.lean ====
section
/-! DEFINITION. Resets, the entry into JOINING, restart and the setup window (10. Station States and
Setup Port, R176, R177, R184, R185, with R38, R57, R83, R121, R142, R157, R174).
Commands POWER_ON, RST_ASSERT, LINE_RESET, WINDOW_EXPIRY, and RESTART's effect. -/

namespace Sys2Proof.Machine

/-! ### Power-on and line reset (R176) -/

/-- R176 step 1: the own number. -/
def ownNumber (sn : BitVec 5) : Nat := sn.toNat + 1

/-- R176 step 2: the working tables after a reset. -/
def Store.loadedTables (c : Store) : Memory := if c.valid then c.pages else []

/-- R176 step 2: the table checksum after a reset. -/
def Store.loadedChecksum (c : Store) : Word16 := if c.valid then c.checksum else 0

/-- R176: the machine after power-on with the lines `pins` and the store `c`; the commands that wait
are kept. -/
def powerOnState (pins : Pins) (c : Store) (pending : List Instr) : State where
  pins := pins
  tables := c.loadedTables
  store := c
  sfe := Sfe.fresh pins.suppr pins.ack
  gdu := { mode := .notReady, nextSeq := 0 }
  tracks := emptySlots
  zev := zevSet c.loadedTables (ownNumber pins.sn)
  nq := Nq.empty
  qlc := Qlc.fresh (ownNumber pins.sn)
  prt := Prt.fresh (ownNumber pins.sn)
  scs := Scs.fresh (ownNumber pins.sn) c.loadedChecksum pins.sselHigh
  raised := []
  pending := pending

/-- The levels of the lines at a reset: RST is high (log 9). -/
def Pins.atReset (p : Pins) (sn : BitVec 5) (suppr ack : Bool) : Pins :=
  { p with sn := sn, suppr := suppr, ack := ack, rstLow := false }

/-- POWER_ON (R176). -/
def execPowerOn (sn : BitVec 5) (suppr ack : Bool) (s : State) : Answered :=
  .next (powerOnState (s.pins.atReset sn suppr ack) s.store s.pending)

/-- RST_ASSERT (R176): the part is held and QDE released. -/
def execRstAssert (s : State) : Answered :=
  .next (({ s with pins := { s.pins with rstLow := true } }).mapQlc fun q => { q with qde := false })

/-- R174: what PRT keeps at a line reset: common time with the withholds it owes, and the trim. -/
def Prt.afterLineReset (p : Prt) (own : Nat) : Prt :=
  { Prt.fresh own with time := p.time, withheld := p.withheld, trim := p.trim }

/-- R142: QLC keeps the last-reject record at a line reset. -/
def Qlc.afterLineReset (q : Qlc) (own : Nat) : Qlc :=
  { Qlc.fresh own with
    rejectCause := q.rejectCause, rejectSender := q.rejectSender, rejectKind := q.rejectKind }

/-- R176: a line reset: as power-on, with what R57, R142, R174 and R176 keep. -/
def State.lineReset (s : State) (pins : Pins) : State :=
  let fresh := powerOnState pins s.store s.pending
  { fresh with
    gdu := { mode := .notReady, nextSeq := s.gdu.nextSeq }
    qlc := s.qlc.afterLineReset fresh.scs.own
    prt := s.prt.afterLineReset fresh.scs.own
    scs := { fresh.scs with faults := s.scs.faults } }

/-- LINE_RESET (R176). -/
def execLineReset (sn : BitVec 5) (suppr ack : Bool) (s : State) : Answered :=
  .next (s.lineReset (s.pins.atReset sn suppr ack))

/-! ### The entry into JOINING (R184) -/

def isPreCheck : Instr → Bool
  | .preCheck _ => true
  | _ => false

/-- R184: the entry into JOINING: joining count 0, TRT with its rewrite requests emptied (R83), NQ
emptied (R157), roster cleared and offset set emptied (R159, R174), ZEV set (R121). -/
def State.enterJoining (s : State) : State :=
  { s with
    tracks := emptySlots
    zev := zevSet s.tables s.scs.own
    nq := Nq.empty
    prt := { s.prt with roster := clearedRoster s.scs.own, offsets := [] }
    scs := { s.scs with station := .joining, windowTimer := none, joining := 0 }
    raised := s.raised.filter fun e => !isPreCheck e }

/-- R185: RESTART's effects on the blocks, and JOINING entered; the sample period restarts (log 15). -/
def State.restart (s : State) : State :=
  let s1 := s.stopHoldoff.stopDriving
  let s2 :=
    { s1 with
      sfe := s.sfe.restarted s.pins
      gdu := { mode := .notReady, nextSeq := s.gdu.nextSeq }
      raised := s1.raised.filter fun e => !isSampleEvent e }
  s2.enterJoining

/-! ### The setup window (R177) -/

/-- R11: a failure recorded. -/
def State.setError (s : State) (code : SetupError) (table entry : Nat) : State :=
  s.mapScs fun c => { c with setupError := code, errTable := table, errEntry := entry }

/-- R177: the window expires: JOINING, or SETUP with OWN_ABSENT or STORE_INVALID. -/
def State.windowExpires (s : State) : State :=
  if s.scs.station = .window then
    if s.store.valid then
      if stationPresent s.tables s.scs.own then s.enterJoining
      else (s.mapScs fun c => { c with station := .setup, windowTimer := none }).setError
        .ownAbsent 1 (s.scs.own - 1)
    else (s.mapScs fun c => { c with station := .setup, windowTimer := none }).setError
      .storeInvalid 0 0
  else s

/-- WINDOW_EXPIRY (R177). -/
def execWindowExpiry (s : State) : Answered :=
  .next ((s.takeEvent fun e => decide (e = .windowExpiry)).unlessHeld State.windowExpires)

end Sys2Proof.Machine
end

