-- ==== Sys2Proof/Machine/Validation.lean ====
section
/-! DEFINITION. Start validation (1. Site Description Tables, R11–R17) and the table checksum (R18). -/

namespace Sys2Proof.Machine

/-- R11: what a failing check reports. -/
structure SetupFailure where
  code : SetupError
  table : Nat
  entry : Nat
  deriving DecidableEq, Repr

/-- The failure of a check when it fails. -/
def failsWhen (bad : Bool) (code : SetupError) (table entry : Nat) : Option SetupFailure :=
  if bad then some { code := code, table := table, entry := entry } else none

/-- R11: checks in order; the first that fails is the one reported. -/
def firstFailure (checks : List (Option SetupFailure)) : Option SetupFailure := checks.findSome? id

/-! ### Site record, stations, lanes (R12, R13) -/

/-- R12: the site record. -/
def checkSite (m : Memory) : Option SetupFailure := failsWhen (!(site m).inRange) .range 0 0

/-- R12: the station entry at position `p`, examined when present. -/
def checkStation (m : Memory) (p : Nat) : Option SetupFailure :=
  let r := stationRec m (p + 1)
  failsWhen (r.present && !r.inRange) .range 1 p

/-- R13: LANE_ENDPOINT. -/
def laneEndpointBad (m : Memory) (l : LaneRec) : Bool :=
  !stationPresent m l.source || !stationPresent m l.target || decide (l.source = l.target) ||
    decide (l.mask = 0)

/-- R12, R13: lane `i`. -/
def checkLane (m : Memory) (i : Nat) : Option SetupFailure :=
  let l := laneRec m i
  firstFailure [failsWhen (!l.inRange) .range 2 i, failsWhen (laneEndpointBad m l) .laneEndpoint 2 i]

/-! ### Zones (R12, R14–R16) -/

/-- R12: RANGE on a zone entry, its approach entries in force included for the kinds that use them. -/
def zoneRangeBad (m : Memory) (i : Nat) : Bool :=
  let z := zoneRec m i
  !z.inRange || (z.kind.computes && (approaches m i).any fun a => !a.inRange)

/-- R14: LEAD_ORDER. -/
def leadOrderBad (z : ZoneRec) : Bool :=
  decide (z.warnLead < z.alarmLead ∨ z.watchLead < z.warnLead)

/-- R15: the chain of mirror sources ends at zone `t`, well or by a fault of `t`'s own entry. -/
def chainEnds (m : Memory) (t : Nat) : Bool :=
  let z := zoneRec m t
  !zonePresent m t || !z.kind.mirrors || decide ((site m).zoneCount ≤ z.source) ||
    decide (47 < z.source) || decide (z.source = t)

/-- R15: following the chain from the mirroring zone `z`, with `links` links still allowed, a
further link would be needed. -/
def chainTooLong (m : Memory) : Nat → Nat → Bool
  | 0, _ => true
  | links + 1, z =>
    let t := (zoneRec m z).source
    !chainEnds m t && chainTooLong m links t

/-- R16: the present zones at lower positions with the owner of zone `i`. -/
def earlierOfOwner (m : Memory) (i : Nat) : List Nat :=
  (List.range i).filter fun k =>
    (zoneRec m k).present && decide ((zoneRec m k).owner = (zoneRec m i).owner)

/-- R12, R14–R16: zone `i`, examined when present. -/
def checkZone (m : Memory) (i : Nat) : Option SetupFailure :=
  let z := zoneRec m i
  let src := zoneRec m z.source
  let earlier := earlierOfOwner m i
  if z.present then
    firstFailure
      [failsWhen (zoneRangeBad m i) .range 3 i,
        failsWhen (!stationPresent m z.owner) .ownerAbsent 3 i,
        failsWhen (leadOrderBad z) .leadOrder 3 i,
        failsWhen (z.kind.computes && decide (z.approachCount = 0)) .approachMissing 3 i,
        failsWhen (z.kind.computes && (approaches m i).any fun a => !stationPresent m a.source)
          .approachSource 3 i,
        failsWhen (z.kind.mirrors && decide ((site m).zoneCount ≤ z.source)) .mirrorLimit 3 i,
        failsWhen (z.kind.mirrors && !src.present) .mirrorAbsent 3 i,
        failsWhen (z.kind.mirrors && decide (z.source = i ∨ src.owner = z.owner)) .mirrorSelf 3 i,
        failsWhen (z.kind.mirrors && chainTooLong m 3 i) .mirrorDepth 3 i,
        failsWhen (decide (4 ≤ earlier.length)) .ownerLoad 3 i,
        failsWhen (earlier.any fun k => decide ((zoneRec m k).pair = z.pair)) .outputClash 3 i]
  else none

/-! ### The whole validation (R11, R17) -/

/-- R17: the own station entry. -/
def checkOwn (m : Memory) (own : Nat) : Option SetupFailure :=
  failsWhen (!stationPresent m own) .ownAbsent 1 (own - 1)

/-- R11: Start validation: the first failing check, none when every check passes. -/
def validate (m : Memory) (own : Nat) : Option SetupFailure :=
  match checkSite m with
  | some f => some f
  | none =>
    match (List.range 32).findSome? (checkStation m) with
    | some f => some f
    | none =>
      match (List.range (site m).laneCount).findSome? (checkLane m) with
      | some f => some f
      | none =>
        match (List.range (site m).zoneCount).findSome? (checkZone m) with
        | some f => some f
        | none => checkOwn m own

/-- R18: the table checksum. -/
def tableChecksum (m : Memory) : Word16 := crc16 (m.readBlock 0 tableBytes)

end Sys2Proof.Machine
end

