-- ==== Sys2Proof/Machine/Setup.lean ====
section
/-! DEFINITION. The setup port's writes and commands (10. Station States and Setup Port, R178–R188):
loading the tables, START and the programming of the store, CLEAR FAULTS, channel service.
Commands HOLD, CLEAR_BUFFER, COMMIT_PAGE, COMMIT_COMPLETE, START, STORE_PAGE_DONE,
STORE_HEADER_DONE, RESTART, CLEAR_FAULTS, CHANNEL_OUT, CHANNEL_IN, TABLE_SELECT_WRITE,
ENTRY_POINTER_WRITE, ENTRY_DATA_WRITE, ENTRY_DATA_READ, EXPECTED_CHECKSUM_H, EXPECTED_CHECKSUM_L. -/

namespace Sys2Proof.Machine

/-! ### Taking a command (R179) -/

def State.setResult (s : State) (r : CmdResult) : State := s.mapScs fun c => { c with result := r }

/-- R179: a command accepted in the states `ok`: BUSY while the busy mark is set, REFUSED_STATE in
another state, else taken, the effect `f` settling the result. -/
def State.command (s : State) (ok : StationState → Bool) (f : State → State) : State :=
  s.throughPort fun s =>
    if s.scs.busy ≠ .clear then s.setResult .busy
    else if ok s.scs.station then f s
    else s.setResult .refusedState

def inWindow (t : StationState) : Bool := decide (t = .window)
def inSetup (t : StationState) : Bool := decide (t = .setup)
def inService (t : StationState) : Bool := decide (t = .joining ∨ t = .operating)
def notProgramming (t : StationState) : Bool := decide (t ≠ .programming)
def always (_ : StationState) : Bool := true

/-- R177: HOLD. -/
def State.holdCmd (s : State) : State :=
  s.mapScs fun c => { c with station := .setup, windowTimer := none, result := .done }

def State.takeHold (s : State) : State := s.command inWindow State.holdCmd

/-- HOLD (R177). -/
def execHold (s : State) : Answered := .next s.takeHold

/-! ### Loading the tables (R180, R181) -/

/-- R180, R181: bytes that a page moves between buffer and working tables: of table 0 position 0 only,
its other positions being zero. -/
def movedBytes (table : Nat) : Nat := if table = 0 then entryLen 0 else pageLen table

/-- R180: a page of the working tables as the buffer takes it. -/
def loadedBuffer (m : Memory) (table page : Nat) : Memory :=
  Memory.writeBlock [] 0 (m.readBlock (pageAddr table page) (movedBytes table))

/-- R178: writes to TABLE SELECT, ENTRY POINTER and ENTRY DATA act. -/
def State.loadingOpen (s : State) : Bool := decide (s.scs.busy = .clear)

/-- R178: the other writes act, but during PROGRAMMING. -/
def State.writesOpen (s : State) : Bool := decide (s.scs.busy ≠ .programming)

/-- R180: CLEAR BUFFER. -/
def State.clearBufferCmd (s : State) : State :=
  s.mapScs fun c => { c with buffer := [], entryPtr := 0, byteOff := 0, result := .done }

def State.takeClearBuffer (s : State) : State := s.command inSetup State.clearBufferCmd

/-- CLEAR_BUFFER (R180). -/
def execClearBuffer (s : State) : Answered := .next s.takeClearBuffer

/-- R181: COMMIT PAGE: the copy begins, its completion waits (log 19). -/
def State.commitCmd (s : State) : State :=
  (s.mapScs fun c => { c with busy := .commit }).raise .commitComplete

def State.takeCommit (s : State) : State := s.command inSetup State.commitCmd

/-- COMMIT_PAGE (R181). -/
def execCommitPage (s : State) : Answered := .next s.takeCommit

/-- R181: the copy of the page buffer into the selected page. -/
def committed (m : Memory) (c : Scs) : Memory :=
  m.writeBlock (pageAddr c.tableSel c.pageSel) (c.buffer.readBlock 0 (movedBytes c.tableSel))

/-- R181: the copy is complete. -/
def State.commitDone (s : State) : State :=
  if s.scs.busy = .commit then
    { s with
      tables := committed s.tables s.scs
      scs := { s.scs with busy := .clear, result := .done } }
  else s

/-- COMMIT_COMPLETE (R181). -/
def execCommitComplete (s : State) : Answered :=
  .next ((s.takeEvent fun e => decide (e = .commitComplete)).unlessHeld State.commitDone)

/-- R180: a write to TABLE SELECT. -/
def State.tableSelect (s : State) (data : Byte) : State :=
  s.throughPort fun s =>
    let table := data.toNat / 16
    let page := data.toNat % 16
    if s.loadingOpen && decide (page < tablePages table) then
      s.mapScs fun c =>
        { c with
          tableSel := table
          pageSel := page
          buffer := loadedBuffer s.tables table page
          entryPtr := 0
          byteOff := 0 }
    else s

/-- TABLE_SELECT_WRITE (R180). -/
def execTableSelectWrite (data : Byte) (s : State) : Answered := .next (s.tableSelect data)

/-- R180: a write to ENTRY POINTER. -/
def State.entryPointer (s : State) (data : Byte) : State :=
  s.throughPort fun s =>
    if s.loadingOpen then s.mapScs fun c => { c with entryPtr := min data.toNat 15, byteOff := 0 }
    else s

/-- ENTRY_POINTER_WRITE (R180). -/
def execEntryPointerWrite (data : Byte) (s : State) : Answered := .next (s.entryPointer data)

/-- R180: the buffer address that ENTRY DATA accesses. -/
def Scs.bufferAddr (c : Scs) : Nat := c.entryPtr * entryLen c.tableSel + c.byteOff

/-- R180: the advance after an access to ENTRY DATA. -/
def Scs.advanceEntry (c : Scs) : Scs :=
  if c.byteOff + 1 < entryLen c.tableSel then { c with byteOff := c.byteOff + 1 }
  else { c with byteOff := 0, entryPtr := min (c.entryPtr + 1) 15 }

/-- R180: a write to ENTRY DATA. -/
def State.entryWrite (s : State) (data : Byte) : State :=
  s.throughPort fun s =>
    if s.loadingOpen && decide (s.scs.station = .setup) then
      s.mapScs fun c => { c with buffer := c.buffer.write c.bufferAddr data }.advanceEntry
    else s

/-- ENTRY_DATA_WRITE (R180). -/
def execEntryDataWrite (data : Byte) (s : State) : Answered := .next (s.entryWrite data)

/-- R178, R180: a read of ENTRY DATA; during PROGRAMMING it returns 0 and changes nothing (log 28). -/
def State.entryRead (s : State) : State :=
  s.throughPort fun s =>
    if s.writesOpen then
      s.mapScs fun c => { c.advanceEntry with sdout := some (c.buffer.read c.bufferAddr) }
    else s.mapScs fun c => { c with sdout := some 0 }

/-- ENTRY_DATA_READ (R180). -/
def execEntryDataRead (s : State) : Answered := .next s.entryRead

/-- R182: the two bytes of the expected checksum. -/
def withHigh (w : Word16) (data : Byte) : Word16 := BitVec.ofNat 16 (data.toNat * 256 + w.toNat % 256)
def withLow (w : Word16) (data : Byte) : Word16 := BitVec.ofNat 16 (w.toNat / 256 * 256 + data.toNat)

/-- R182: a write to EXPECTED CHECKSUM H. -/
def State.expectHigh (s : State) (data : Byte) : State :=
  s.throughPort fun s =>
    if s.writesOpen then s.mapScs fun c => { c with expected := withHigh c.expected data } else s

/-- EXPECTED_CHECKSUM_H (R182). -/
def execExpectedChecksumH (data : Byte) (s : State) : Answered := .next (s.expectHigh data)

/-- R182: a write to EXPECTED CHECKSUM L. -/
def State.expectLow (s : State) (data : Byte) : State :=
  s.throughPort fun s =>
    if s.writesOpen then s.mapScs fun c => { c with expected := withLow c.expected data } else s

/-- EXPECTED_CHECKSUM_L (R182). -/
def execExpectedChecksumL (data : Byte) (s : State) : Answered := .next (s.expectLow data)

/-! ### START and the store (R182, R183) -/

/-- R182, R183: programming begins; step 1 clears the header's valid mark. -/
def State.beginProgramming (s : State) (value : Word16) : State :=
  { s with
    store := { s.store with valid := false }
    scs :=
      { s.scs with
        station := .programming
        busy := .programming
        prog := some { stage := .page 0, retried := false, value := value } } }

/-- R182: START. -/
def State.startCmd (s : State) : State :=
  let s1 := s.setError .noError 0 0
  match validate s.tables s.scs.own with
  | some f => (s1.setError f.code f.table f.entry).setResult .done
  | none =>
    if tableChecksum s.tables = s.scs.expected then s1.beginProgramming (tableChecksum s.tables)
    else (s1.setError .checksum 0 0).setResult .done

def State.takeStart (s : State) : State := s.command inSetup State.startCmd

/-- START (R182). -/
def execStart (s : State) : Answered := .next s.takeStart

/-- R183: programming fails: STORE_WRITE at the table and entry given, STORE_FAULT, SETUP. -/
def State.programmingFails (s : State) (table entry : Nat) : State :=
  ((s.mapScs fun c =>
    { c with station := .setup, busy := .clear, result := .done, prog := none }).setError
      .storeWrite table entry).faultEvent .storeFault

/-- R183: the stage after page `k`. -/
def ProgStage.after (k : Nat) : ProgStage := if k + 1 < pageOrder.length then .page (k + 1) else .header

def State.setProg (s : State) (p : Programming) : State := s.mapScs fun c => { c with prog := some p }

/-- R183 step 2: page `k` has been written and read back as `readBack`, which the stored page then
holds (log 18). -/
def State.pageDone (s : State) (p : Programming) (k : Nat) (readBack : List Byte) : State :=
  let at_ := pageOrder.getD k (0, 0)
  let addr := pageAddr at_.1 at_.2
  let len := pageLen at_.1
  let s1 := { s with store := { s.store with pages := s.store.pages.writeBlock addr (readBack.take len) } }
  if readBack = s.tables.readBlock addr len then
    s1.setProg { p with stage := ProgStage.after k, retried := false }
  else if p.retried then s1.programmingFails at_.1 (16 * at_.2)
  else s1.setProg { p with retried := true }

/-- R183: programming in progress: its record exists while the station is PROGRAMMING. -/
def Scs.inProgress (c : Scs) : Option Programming :=
  if c.station = .programming then c.prog else none

/-- R183: the end of one page's erase, write and read-back. -/
def State.storePage (s : State) (readBack : List Byte) : State :=
  match s.scs.inProgress with
  | none => s
  | some p =>
    match p.stage with
    | .page k => s.pageDone p k readBack
    | .header => s

/-- STORE_PAGE_DONE (R183). -/
def execStorePageDone (readBack : List Byte) (s : State) : Answered :=
  .next (s.unlessHeld fun s => s.storePage readBack)

/-- R183 steps 3 and 4: the header has been written and read back as `valid` and `checksum`. -/
def State.headerDone (s : State) (p : Programming) (valid : Bool) (checksum : Word16) : State :=
  if valid = true ∧ checksum = p.value then
    { s with
      store := { s.store with valid := true, checksum := p.value }
      scs := { s.scs with checksum := p.value, busy := .clear, result := .done, prog := none } }.enterJoining
  else if p.retried then s.programmingFails 4 0
  else s.setProg { p with retried := true }

/-- R183: the end of one write and read-back of the header. -/
def State.storeHeader (s : State) (valid : Bool) (checksum : Word16) : State :=
  match s.scs.inProgress with
  | none => s
  | some p =>
    match p.stage with
    | .page _ => s
    | .header => s.headerDone p valid checksum

/-- STORE_HEADER_DONE (R183). -/
def execStoreHeaderDone (valid : Bool) (checksum : Word16) (s : State) : Answered :=
  .next (s.unlessHeld fun s => s.storeHeader valid checksum)

/-! ### RESTART, CLEAR FAULTS, channel service (R185, R186, R188) -/

/-- R185. -/
def State.restartCmd (s : State) : State := s.restart.setResult .done

def State.takeRestart (s : State) : State := s.command inService State.restartCmd

/-- RESTART (R185). -/
def execRestart (s : State) : Answered := .next s.takeRestart

/-- R188, R156: CLEAR FAULTS; the queue may be eligible again at once. -/
def State.clearFaultsCmd (s : State) : State :=
  (s.mapScs fun c =>
    { c with
      faults :=
        c.faults.cleared s.sfe.anemoSilent s.sfe.vaneErratic s.sfe.dustLamp s.prt.timeRail
      result := .done }).follow

def State.takeClearFaults (s : State) : State := s.command notProgramming State.clearFaultsCmd

/-- CLEAR_FAULTS (R188). -/
def execClearFaults (s : State) : Answered := .next s.takeClearFaults

/-- R186: a command on the channel that VIEW SELECT names. -/
def State.onChannel (s : State) (f : State → Channel → State) : State :=
  match s.scs.view with
  | .channel c => (f s c).setResult .done
  | .nothing => s.setResult .refusedArgument
  | .copy _ => s.setResult .refusedArgument

def State.takeChannelOut (s : State) : State := s.command always fun s => s.onChannel State.channelOut

/-- CHANNEL_OUT (R31, R186). -/
def execChannelOut (s : State) : Answered := .next s.takeChannelOut

def State.takeChannelIn (s : State) : State := s.command always fun s => s.onChannel State.channelIn

/-- CHANNEL_IN (R33, R34, R186). -/
def execChannelIn (s : State) : Answered := .next s.takeChannelIn

end Sys2Proof.Machine
end

