-- ==== Sys2Proof/Machine/Views.lean ====
section
/-! DEFINITION. What the setup port reads: the views (R39, R82, R121, R173, R191, R196) and the value
of every index (R178, R191, R195). Commands VIEW_SELECT, VIEW_DATA. -/

namespace Sys2Proof.Machine

/-- R196: a deadline or time, 0 when absent. -/
def timeBytes (t : Option Time) : List Byte := bytes4 (t.getD 0)

/-! ### Roster views and the own time view (R173) -/

/-- R196: the announced bytes of a roster entry never heard, or cleared. -/
def noAnnouncement : List Byte := [0, 0, 0, 0, 0, 0, 0xFF, 0xFF, 0]

/-- R196: the view of another station's entry; state 0 when it is absent from the station table, as
`State.rosterOf` reads it. -/
def rosterView (e : RosterEntry) : List Byte :=
  [e.state.code] ++ bytes4 e.lastHeard ++ timeBytes e.deadline
  ++ [byteOfBool e.announced.isSome]
  ++ (match e.announced with
      | some a => announcedBytes a
      | none => noAnnouncement)

/-- R196: the slew in progress: bits 3–0 the remaining count, bit 7 set for withholds; the bits between are
0 (log 39). -/
def slewByte (slew : Int) : Byte := byteOf (slew.natAbs + bitOf (decide (slew < 0)) 7)

/-- R173, R196: the own time view. -/
def ownTimeView (p : Prt) : List Byte :=
  [RosterState.code .self] ++ bytes4 p.time
  ++ [BitVec.ofInt 8 p.trim, lockByte p.lock p.trusted, byteOf p.lockCount]
  ++ bytes4 (BitVec.ofInt 32 (p.lastCorr.getD 0)) ++ [slewByte p.slew, byteOf p.offsets.length]

/-! ### Zone views (R121) -/

def levelByte (l : Level) : Byte := byteOf l.toNat

/-- R196: the view of an owned zone. -/
def ownedView (kindCode : Nat) (z : ZoneState) : List Byte :=
  [1, byteOf z.pair, byteOf kindCode, levelByte z.demand, levelByte z.level] ++ timeBytes z.hold
  ++ [byteOfBool z.acked, levelByte z.contribution, byteOfBool z.lost] ++ timeBytes z.lostDeadline
  ++ [byteOfBool z.degraded, levelByte z.announced]

/-- R196: the view of a mirror source. -/
def sourceView (r : Received) : List Byte :=
  [2, byteOfBool r.received, levelByte r.level, byteOfBool r.lostMark] ++ bytes4 r.receipt

/-- R121, R196: the view of zone `i`. -/
def State.zoneView (s : State) (i : Nat) : List Byte :=
  match s.zev.zones.find? fun z => decide (z.zone = i) with
  | some z => ownedView (zoneRec s.tables i).kindCode z
  | none =>
    match s.receivedOf i with
    | some r => sourceView r
    | none => [0]

/-! ### Track views (R82) -/

/-- R196: one sighting; bits 7–2 of its marks are 0 (log 39). -/
def sightingView (x : Sighting) : List Byte :=
  [byteOf x.station] ++ bytes4 x.time ++ bytes2 x.speed ++ bytes2 (carried x.dust)
  ++ [byteOf (bitOf x.w 0 + bitOf x.trusted 1), byteOf x.updates]

/-- R82, R196: a slot that holds a track; bits 7–3 of its marks are 0 (log 39). -/
def trackView (t : Track) : List Byte :=
  [1, byteOf t.id.origin, byteOf t.id.seq, t.state.code,
    byteOf (bitOf t.confirmed 0 + bitOf t.placeholder 1 + bitOf t.w 2)]
  ++ timeBytes (if t.placeholder then none else t.onset) ++ [byteOf t.sector]
  ++ bytes2 t.peakSpeed ++ bytes2 (carried t.peakDust) ++ bytes4 t.last ++ bytes4 t.fade
  ++ timeBytes t.close ++ [byteOf t.sightings.length] ++ t.sightings.flatMap sightingView

/-- R82: the view of a slot. -/
def slotView (slots : List (Option Track)) (k : Nat) : List Byte :=
  match slots[k]? with
  | some (some t) => trackView t
  | some none => [0]
  | none => [0]

/-! ### Channel views (R39), read as they stand -/

def serviceByte (inService : Bool) : Byte := byteOfBool (!inService)

/-- R39, R196: the view of a channel; a channel out of service shows its held values. -/
def State.channelView (s : State) (c : Channel) : List Byte :=
  let f := s.sfe
  match c with
  | .anemo =>
    [serviceByte f.anemoIn, byteOf f.lastAnemo] ++ bytes2 f.g3 ++ bytes2 (carried f.s60)
    ++ [byteOf f.warming] ++ bytes2 f.silentRun ++ [byteOfBool f.anemoSilent]
  | .vane =>
    [serviceByte f.vaneIn, byteOf f.raw, byteOf (f.candidate.getD 0xFF), byteOf f.run,
      byteOf f.accepted, byteOf f.largeChanges, byteOfBool f.vaneErratic]
  | .dust => [serviceByte f.dustIn, byteOf f.lastDust] ++ bytes2 (carried f.dustIndex)
  | .suppr =>
    [serviceByte f.supprIn, byteOfBool f.supprLevel,
      byteOfBool (decide (f.supprLevel = s.ownRec.supprHigh)), byteOfBool f.latch]
  | .ack => [serviceByte f.ackIn, byteOfBool f.ackLevel, byteOfBool f.ackPending]
  | .lamp =>
    [serviceByte f.lampIn, byteOfBool (if f.lampIn then s.pins.lamp else f.lampHeld),
      byteOf f.lampLow, byteOfBool f.dustLamp]

/-! ### VIEW SELECT and VIEW DATA (R191, R195) -/

/-- R195: what a code selects. -/
inductive Selected where
  | roster (station : Nat)
  | zone (zone : Nat)
  | slot (slot : Nat)
  | channel (c : Channel)
  | nothing
  deriving DecidableEq, Repr

def channelOf : Nat → Option Channel
  | 0 => some .anemo
  | 1 => some .vane
  | 2 => some .dust
  | 3 => some .suppr
  | 4 => some .ack
  | 5 => some .lamp
  | _ => none

/-- R195: the codes written to VIEW SELECT. -/
def selectedBy (code : Nat) : Selected :=
  if 1 ≤ code ∧ code ≤ 0x20 then .roster code
  else if 0x40 ≤ code ∧ code ≤ 0x6F then .zone (code - 0x40)
  else if 0x80 ≤ code ∧ code ≤ 0x8F then .slot (code - 0x80)
  else if 0xC0 ≤ code then
    match channelOf (code - 0xC0) with
    | some c => .channel c
    | none => .nothing
  else .nothing

/-- R173: the roster view of station `n`, or the own time view. -/
def State.stationView (s : State) (n : Nat) : List Byte :=
  if n = s.scs.own then ownTimeView s.prt
  else
    match s.rosterOf n with
    | some e => rosterView e
    | none => []

/-- R191: the selection that a code makes, with the copy it takes. -/
def State.viewOf (s : State) (code : Nat) : View :=
  match selectedBy code with
  | .roster n => .copy (s.stationView n)
  | .zone i => .copy (s.zoneView i)
  | .slot k => .copy (slotView s.tracks k)
  | .channel c => .channel c
  | .nothing => .nothing

/-- R191: a write to VIEW SELECT. -/
def State.viewSelect (s : State) (code : Byte) : State :=
  s.throughPort fun s =>
    if s.writesOpen then s.mapScs fun c => { c with view := s.viewOf code.toNat, viewOff := 0 } else s

/-- VIEW_SELECT (R191). -/
def execViewSelect (code : Byte) (s : State) : Answered := .next (s.viewSelect code)

/-- R191: the bytes of the selected view: a copy, or a channel read as it stands. -/
def State.viewBytes (s : State) : List Byte :=
  match s.scs.view with
  | .nothing => []
  | .copy l => l
  | .channel c => s.channelView c

/-- R191: a read of VIEW DATA; 0 without advance past the last byte, and during PROGRAMMING (log 28). -/
def State.viewRead (s : State) : State :=
  s.throughPort fun s =>
    if s.writesOpen then
      match s.viewBytes[s.scs.viewOff]? with
      | some b => s.mapScs fun c => { c with viewOff := c.viewOff + 1, sdout := some b }
      | none => s.mapScs fun c => { c with sdout := some 0 }
    else s.mapScs fun c => { c with sdout := some 0 }

/-- VIEW_DATA (R191). -/
def execViewData (s : State) : Answered := .next s.viewRead

/-! ### The value of every index (R178, R191, R195) -/

/-- R195: the value that a read of an index number returns outside PROGRAMMING. -/
def State.indexValue (s : State) (index : Nat) : Byte :=
  match index with
  | 0x01 => s.scs.statusByte
  | 0x02 => s.scs.faultsByte
  | 0x04 => s.scs.resultByte
  | 0x05 => byteOf (s.scs.tableSel * 16 + s.scs.pageSel)
  | 0x06 => byteOf s.scs.entryPtr
  | 0x07 => s.scs.buffer.read s.scs.bufferAddr
  | 0x0A => s.scs.setupError.code
  | 0x0B => byteOf s.scs.errTable
  | 0x0C => byteOf s.scs.errEntry
  | 0x0D => byteOf s.qlc.rejectCause
  | 0x0E => s.qlc.rejectSender
  | 0x0F => s.qlc.rejectKind
  | 0x11 => s.viewBytes.getD s.scs.viewOff 0
  | 0x12 => byteOf s.scs.own
  | _ => 0

/-- R178: the byte that a read of an index carries, none where no transaction is taken: during PROGRAMMING
every index but STATUS and RESULT reads 0. The reads that change state are ENTRY_DATA_READ and
VIEW_DATA. -/
def State.portRead (s : State) (index : Nat) : Option Byte :=
  if s.portOpen then
    some (if s.writesOpen || decide (index = 0x01 ∨ index = 0x04) then s.indexValue index else 0)
  else none

end Sys2Proof.Machine
end

