-- ==== Sys2Proof/Machine/Port.lean ====
section
/-! DEFINITION. Writes through the setup port by code and by index (R178, R179, R195).
Commands UNKNOWN_COMMAND, REGISTER_WRITE_IGNORED, TRANSACTION_ABANDON. -/

namespace Sys2Proof.Machine

/-- R179: a code that names no command: BUSY while the busy mark is set, else REFUSED_ARGUMENT. -/
def State.unknownCommand (s : State) : State :=
  s.throughPort fun s =>
    if s.scs.busy ≠ .clear then s.setResult .busy else s.setResult .refusedArgument

/-- R179, R195: a write to COMMAND, by its code. -/
def State.commandWrite (s : State) (code : Byte) : State :=
  match code.toNat with
  | 1 => s.takeHold
  | 2 => s.takeClearBuffer
  | 3 => s.takeCommit
  | 4 => s.takeStart
  | 5 => s.takeRestart
  | 6 => s.takeClearFaults
  | 7 => s.takeChannelOut
  | 8 => s.takeChannelIn
  | _ => s.unknownCommand

/-- UNKNOWN_COMMAND (R179); a code that does name a command gives that command (log 27). -/
def execUnknownCommand (code : Byte) (s : State) : Answered := .next (s.commandWrite code)

/-- R178, R195: a write to an index number: a read-only index and a number that names no index have
no effect, and a writable index acts where the busy mark lets it. -/
def State.portWrite (s : State) (index : Nat) (data : Byte) : State :=
  match index with
  | 0x03 => s.commandWrite data
  | 0x05 => s.tableSelect data
  | 0x06 => s.entryPointer data
  | 0x07 => s.entryWrite data
  | 0x08 => s.expectHigh data
  | 0x09 => s.expectLow data
  | 0x10 => s.viewSelect data
  | _ => s

/-- REGISTER_WRITE_IGNORED (R178); a write that is not to be ignored acts (log 27). -/
def execRegisterWriteIgnored (index : BitVec 7) (data : Byte) (s : State) : Answered :=
  .next (s.portWrite index.toNat data)

/-- R178: SSEL rises: SDOUT is released and SSEL is seen high. -/
def State.sselRises (s : State) : State :=
  { s with pins := { s.pins with sselHigh := true } }.sselSeenHigh

/-- TRANSACTION_ABANDON (R178): SSEL has risen before the data byte was complete; nothing else changes. -/
def execTransactionAbandon (s : State) : Answered := .next s.sselRises

/-! ### A transaction by its two bytes (R178, R195) -/

/-- R178, R195: the effect of a read of an index number; only ENTRY DATA and VIEW DATA have one. -/
def State.readEffect (s : State) (index : Nat) : State :=
  match index with
  | 0x07 => s.entryRead
  | 0x11 => s.viewRead
  | _ => s

/-- R178, R195: one transaction: bit 7 of the index byte is 1 for a read, whose byte the answer carries, and
0 for a write of the data byte. -/
def State.transaction (s : State) (index data : Byte) : State × Option Byte :=
  let number := index.toNat % 128
  if index.msb then (s.readEffect number, s.portRead number) else (s.portWrite number data, none)

end Sys2Proof.Machine
end

