-- ==== Sys2Proof/Machine/Dispatch.lean ====
section
/-! DEFINITION. The effect of each command: one arm for each row of spec/opcode_table.json. -/

namespace Sys2Proof.Machine

/-- The effect of a command on everything but the queue of commands. -/
def exec (i : Instr) (s : State) : Host.Outcome State Fault Refusal :=
  match i with
  | .powerOn sn suppr ack => Sys2Proof.Machine.execPowerOn sn suppr ack s
  | .rstAssert => Sys2Proof.Machine.execRstAssert s
  | .lineReset sn suppr ack => Sys2Proof.Machine.execLineReset sn suppr ack s
  | .sampleEvent vane lamp => Sys2Proof.Machine.execSampleEvent vane lamp s
  | .pulseEdge line => Sys2Proof.Machine.execPulseEdge line s
  | .supprTransition level => Sys2Proof.Machine.execSupprTransition level s
  | .ackTransition level => Sys2Proof.Machine.execAckTransition level s
  | .windowExpiry => Sys2Proof.Machine.execWindowExpiry s
  | .hold => Sys2Proof.Machine.execHold s
  | .clearBuffer => Sys2Proof.Machine.execClearBuffer s
  | .commitPage => Sys2Proof.Machine.execCommitPage s
  | .commitComplete => Sys2Proof.Machine.execCommitComplete s
  | .start => Sys2Proof.Machine.execStart s
  | .storePageDone readBack => Sys2Proof.Machine.execStorePageDone readBack s
  | .storeHeaderDone valid checksum => Sys2Proof.Machine.execStoreHeaderDone valid checksum s
  | .restart => Sys2Proof.Machine.execRestart s
  | .clearFaults => Sys2Proof.Machine.execClearFaults s
  | .channelOut => Sys2Proof.Machine.execChannelOut s
  | .channelIn => Sys2Proof.Machine.execChannelIn s
  | .unknownCommand code => Sys2Proof.Machine.execUnknownCommand code s
  | .tableSelectWrite data => Sys2Proof.Machine.execTableSelectWrite data s
  | .entryPointerWrite data => Sys2Proof.Machine.execEntryPointerWrite data s
  | .entryDataWrite data => Sys2Proof.Machine.execEntryDataWrite data s
  | .entryDataRead => Sys2Proof.Machine.execEntryDataRead s
  | .expectedChecksumH data => Sys2Proof.Machine.execExpectedChecksumH data s
  | .expectedChecksumL data => Sys2Proof.Machine.execExpectedChecksumL data s
  | .viewSelect code => Sys2Proof.Machine.execViewSelect code s
  | .viewData => Sys2Proof.Machine.execViewData s
  | .registerWriteIgnored index data => Sys2Proof.Machine.execRegisterWriteIgnored index data s
  | .transactionAbandon => Sys2Proof.Machine.execTransactionAbandon s
  | .lineBusy => Sys2Proof.Machine.execLineBusy s
  | .lineIdle => Sys2Proof.Machine.execLineIdle s
  | .holdoffExpiry quiet => Sys2Proof.Machine.execHoldoffExpiry quiet s
  | .transmitSuccess => Sys2Proof.Machine.execTransmitSuccess s
  | .collision => Sys2Proof.Machine.execCollision s
  | .frameReceived chars => Sys2Proof.Machine.execFrameReceived chars s
  | .preCheck id => Sys2Proof.Machine.execPreCheck id s
  | .fadeDeadline id => Sys2Proof.Machine.execFadeDeadline id s
  | .closeDeadline id => Sys2Proof.Machine.execCloseDeadline id s
  | .silenceDeadline station => Sys2Proof.Machine.execSilenceDeadline station s
  | .tick => Sys2Proof.Machine.execTick s
  | .evaluation => Sys2Proof.Machine.execEvaluation s
  | .ackEvaluation => Sys2Proof.Machine.execAckEvaluation s
  | .epochBoundary => Sys2Proof.Machine.execEpochBoundary s
  | .slewStep => Sys2Proof.Machine.execSlewStep s
  | .trimStep => Sys2Proof.Machine.execTrimStep s
  | .schedulePoint => Sys2Proof.Machine.execSchedulePoint s

end Sys2Proof.Machine
end

