-- ==== Sys2Proof/Machine/Idle.lean ====
section
/-! DEFINITION. What the part does when no command waits (log 3): it takes a stored deadline that common
time has reached; with none, the oldest event that its blocks have raised; with none, one millisecond of its
oscillator passes. -/

namespace Sys2Proof.Machine

/-! ### One millisecond of the oscillator -/

/-- R168: 64 ms of the oscillator with a slew in progress give one gain or withhold. -/
def State.slewMs (s : State) : State :=
  if s.prt.slew = 0 then s
  else if s.prt.slewPhase + 1 < Config.slewMs then
    s.mapPrt fun p => { p with slewPhase := p.slewPhase + 1 }
  else s.slewStep

/-- R169: the trim phase counter. -/
def State.trimMs (s : State) : State :=
  if s.prt.trim = 0 then s
  else if s.prt.trimPhase + 1 < trimInterval s.prt.trim then
    s.mapPrt fun p => { p with trimPhase := p.trimPhase + 1 }
  else s.trimStep

/-- R164: the count of the millisecond, or the withhold it owes; what becomes of a second withhold is
the free value of log 7. -/
def State.countMs (s : State) : State :=
  match s.prt.withheld with
  | 0 => s.count
  | n + 1 => s.mapPrt fun p => { p with withheld := if Config.secondWithholdCarried then n else 0 }

/-- R122: a BUSY line on which this station drives nothing becomes IDLE when its wait is over (log 17). -/
def State.busyMs (s : State) : State :=
  if s.qlc.inFlight.isNone then
    if Config.msQuiet < s.qlc.idleIn then s.mapQlc fun q => { q with idleIn := q.idleIn - Config.msQuiet }
    else (s.mapQlc fun q => { q with idleIn := 0 }).raise .lineIdle
  else s

/-- R122: quiet time, in character times of 10 bits at 38,400 bit/s: 96/25 to the millisecond
(log 17). -/
def State.quietMs (s : State) : State :=
  if s.qlc.busy then s.busyMs
  else
    (s.mapQlc fun q =>
      let t := q.quietFrac + Config.msQuiet
      { q with quiet := min (q.quiet + t / 25) Config.quietMax, quietFrac := t % 25 }).expiryCheck

/-- R26: the filter of a line in service: ms its live level has differed from the recognised one. -/
def filterMs (inService : Bool) (live level : Bool) (held : Nat) : Nat :=
  if inService && decide (live ≠ level) then held + 1 else 0

/-- R26: the SUPPR filter. -/
def State.supprMs (s : State) : State :=
  let n := filterMs s.sfe.supprIn s.pins.suppr s.sfe.supprLevel s.sfe.supprFilter
  if n < Config.filterMs then s.mapSfe fun f => { f with supprFilter := n }
  else (s.mapSfe fun f => { f with supprFilter := 0 }).raise (.supprTransition s.pins.suppr)

/-- R26: the ACK filter. -/
def State.ackMs (s : State) : State :=
  let n := filterMs s.sfe.ackIn s.pins.ack s.sfe.ackLevel s.sfe.ackFilter
  if n < Config.filterMs then s.mapSfe fun f => { f with ackFilter := n }
  else (s.mapSfe fun f => { f with ackFilter := 0 }).raise (.ackTransition s.pins.ack)

/-- R177: the window timer. -/
def State.windowMs (s : State) : State :=
  match s.scs.windowTimer with
  | none => s
  | some n =>
    if n + 1 < Config.windowMs then s.mapScs fun c => { c with windowTimer := some (n + 1) }
    else (s.mapScs fun c => { c with windowTimer := some Config.windowMs }).raise .windowExpiry

/-- R19: the sample period. -/
def State.sampleMs (s : State) : State :=
  if s.sfe.phase + 1 < Config.samplePeriod then s.mapSfe fun f => { f with phase := f.phase + 1 }
  else (s.mapSfe fun f => { f with phase := 0 }).raise (.sampleEvent s.pins.vane s.pins.lamp)

/-- R178: SSEL high is seen. -/
def State.sselMs (s : State) : State := if s.pins.sselHigh then s.sselSeenHigh else s

/-- One millisecond: common time always runs (log 8); the rest stands still while RST is low. What its counts
reach beside a deadline, a tick among them, is taken after it, with common time as all its counts have left it
(log 42). -/
def State.millisecond (s : State) : State :=
  (s.slewMs.trimMs.countMs).unlessHeld fun s => s.quietMs.supprMs.ackMs.windowMs.sselMs.sampleMs

/-! ### Stored deadlines reached otherwise (R73, R74, R162) -/

/-- The deadline of a track that has passed. -/
def Track.dueDeadline (t : Track) (now : Time) : Option Instr :=
  if t.fadeDue now then some (.fadeDeadline t.id)
  else if t.closeDue now then some (.closeDeadline t.id)
  else none

/-- The silence deadline that has passed, the lowest station first. -/
def State.dueSilence (s : State) : Option Instr :=
  (List.range 32).findSome? fun k =>
    match s.rosterOf (k + 1) with
    | some e => if e.silenceDue s.now then some (.silenceDeadline (k + 1)) else none
    | none => none

/-- A stored deadline that has passed: of several reached together those of tracks in ascending slot, then
those of silence in ascending station (log 35); none is taken while RST is low (R176). -/
def State.dueDeadline (s : State) : Option Instr :=
  if s.pins.rstLow then none
  else
    match (liveTracks s.tracks).findSome? fun t => t.dueDeadline s.now with
    | some e => some e
    | none => s.dueSilence

/-! ### The idle step -/

/-- What the part does when no command waits. A deadline that no moving of common time has reached, as one of
an entry that a commit lists again (log 38), is taken before anything that waits. -/
def idle (s : State) : Answered :=
  match s.dueDeadline with
  | some e => exec e s
  | none =>
    match s.raised with
    | e :: _ => exec e s
    | [] => .next s.millisecond

end Sys2Proof.Machine
end

