-- ==== Sys2Proof/Machine/Outputs.lean ====
section
/-! DEFINITION. The output lines as functions of the state (R113–R116, R176): beacons and sounders of
the four output pairs. TROUBLE (R190) is `State.trouble`. -/

namespace Sys2Proof.Machine

/-- The zone state bound to an output pair (R7, R99). -/
def State.boundZone (s : State) (pair : Nat) : Option ZoneState :=
  s.zev.zones.find? fun z => decide (z.pair = pair)

/-- R114: the phase of a pattern. -/
def State.patternPhase (s : State) (period : Nat) : Nat := s.now.toNat % period

/-- R114: NO SERVICE. -/
def State.noService (s : State) : Bool :=
  let p := s.patternPhase 2000
  decide (p < 200 ∨ (400 ≤ p ∧ p < 600))

/-- R113, R114: the pattern of a level in OPERATING. -/
def State.levelPattern (s : State) : Level → Bool
  | .clear => false
  | .watch => decide (s.patternPhase 4000 < 1000)
  | .warn => decide (s.patternPhase 1000 < 500)
  | .alarm => true

/-- R115: the dark gap of the LOST overlay. -/
def State.lostGap (s : State) (z : ZoneState) : Bool :=
  let p := s.patternPhase 1000
  z.degraded && decide (200 ≤ p ∧ p < 300)

/-- R113–R115, R176: BCN0–BCN3. -/
def State.beacon (s : State) (pair : Nat) : Bool :=
  if s.pins.rstLow then false
  else
    match s.boundZone pair with
    | none => false
    | some z =>
      if s.scs.station = .operating then s.levelPattern z.level && !s.lostGap z else s.noService

/-- R116: the sounder of a zone in OPERATING. -/
def State.zoneSounds (s : State) (z : ZoneState) : Bool :=
  !z.acked &&
    match z.level with
    | .alarm => true
    | .warn => decide (s.patternPhase 2000 < 1000)
    | .watch => false
    | .clear => false

/-- R113, R116, R176: SND0–SND3. -/
def State.sounder (s : State) (pair : Nat) : Bool :=
  if s.pins.rstLow then false
  else
    match s.boundZone pair with
    | none => false
    | some z => decide (s.scs.station = .operating) && s.zoneSounds z

end Sys2Proof.Machine
end

