-- ==== Sys2Proof/WellFormed.lean ====
section
/-! DEFINITION. Which commands the outside can send: the operand ranges the manual gives. -/

namespace Sys2Proof

/-- A station number is 1–32 (Conventions). -/
def stationOk (n : Nat) : Bool := decide (1 ≤ n ∧ n ≤ 32)

/-- A track id is an origin 1–32 and a sequence 0–255 (Conventions). -/
def TrackId.ok (i : TrackId) : Bool := stationOk i.origin && decide (i.seq ≤ 255)

/-- R195: the command codes 0x01 to 0x08 name a command. -/
def namesCommand (code : Byte) : Bool := decide (1 ≤ code.toNat ∧ code.toNat ≤ 8)

/-- R195: the index numbers a write to which can act: COMMAND. No state lets a write to it go
unanswered (R178), so it is never an ignored write. -/
def isCommandIndex (index : BitVec 7) : Bool := decide (index.toNat = 3)

/-- R194: bytes of a page of each of the four tables. -/
def pageLengthOk (n : Nat) : Bool := decide (n = 192 ∨ n = 112 ∨ n = 96 ∨ n = 800)

/-- A well-formed command: every operand in the range the manual gives it. -/
def Instr.wf : Instr → Bool
  | .powerOn _ _ _ => true
  | .rstAssert => true
  | .lineReset _ _ _ => true
  | .sampleEvent _ _ => true
  | .pulseEdge _ => true
  | .supprTransition _ => true
  | .ackTransition _ => true
  | .windowExpiry => true
  | .hold => true
  | .clearBuffer => true
  | .commitPage => true
  | .commitComplete => true
  | .start => true
  | .storePageDone readBack => pageLengthOk readBack.length
  | .storeHeaderDone _ _ => true
  | .restart => true
  | .clearFaults => true
  | .channelOut => true
  | .channelIn => true
  | .unknownCommand code => !namesCommand code
  | .tableSelectWrite _ => true
  | .entryPointerWrite _ => true
  | .entryDataWrite _ => true
  | .entryDataRead => true
  | .expectedChecksumH _ => true
  | .expectedChecksumL _ => true
  | .viewSelect _ => true
  | .viewData => true
  | .registerWriteIgnored index _ => !isCommandIndex index
  | .transactionAbandon => true
  | .lineBusy => true
  | .lineIdle => true
  | .holdoffExpiry quiet => decide (quiet ≤ 255)
  | .transmitSuccess => true
  | .collision => true
  | .frameReceived chars => decide (chars.length ≤ 257)
  | .preCheck id => id.ok
  | .fadeDeadline id => id.ok
  | .closeDeadline id => id.ok
  | .silenceDeadline station => stationOk station
  | .tick => true
  | .evaluation => true
  | .ackEvaluation => true
  | .epochBoundary => true
  | .slewStep => true
  | .trimStep => true
  | .schedulePoint => true

end Sys2Proof
end

