-- ==== Sys2Proof/Safety.lean ====
section
/-! DEFINITION. What always holds of the part: predicates on a state that the statements claim of
every step, one for each block or pair of blocks. -/

namespace Sys2Proof.Machine

/-! ### Tables, store and the setup port (R1, R18, R180, R183) -/

/-- The tables, the store's pages and the page buffer keep their canonical form and their extent
(R1, R180, R183). -/
def MemoryOk (s : State) : Prop :=
  s.tables.wf = true ∧ s.tables.below tableBytes = true ∧
  s.store.pages.wf = true ∧ s.store.pages.below tableBytes = true ∧
  s.scs.buffer.wf = true ∧ s.scs.buffer.below 800 = true

/-- R180: the selection names a page that exists, and pointer and offset lie inside it. -/
def SelectionOk (s : State) : Prop :=
  s.scs.pageSel < tablePages s.scs.tableSel ∧ s.scs.entryPtr ≤ 15 ∧
  s.scs.byteOff < entryLen s.scs.tableSel

/-- R183: the pages before the stage of programming have been stored as the working tables hold them. -/
def pagesStored (s : State) : ProgStage → Prop
  | .page k =>
    k < pageOrder.length ∧ ∀ p ∈ pageOrder.take k,
      s.store.pages.readBlock (pageAddr p.1 p.2) (pageLen p.1) =
        s.tables.readBlock (pageAddr p.1 p.2) (pageLen p.1)
  | .header =>
    ∀ p ∈ pageOrder,
      s.store.pages.readBlock (pageAddr p.1 p.2) (pageLen p.1) =
        s.tables.readBlock (pageAddr p.1 p.2) (pageLen p.1)

/-- R183: programming in progress holds the checksum of the working tables. -/
def programmingOk (s : State) (p : Programming) : Prop :=
  p.value = tableChecksum s.tables ∧ pagesStored s p.stage

/-- What each station state says of tables, store, checksum and busy mark (R1, R176, R179, R183). -/
def stationTablesOk (s : State) : StationState → Prop
  | .window =>
    s.scs.busy = .clear ∧ s.scs.prog = none ∧
    s.tables = s.store.loadedTables ∧ s.scs.checksum = s.store.loadedChecksum
  | .setup => s.scs.busy ≠ .programming ∧ s.scs.prog = none
  | .programming =>
    s.scs.busy = .programming ∧ s.store.valid = false ∧
    ∃ p, s.scs.prog = some p ∧ programmingOk s p
  | .joining =>
    s.scs.busy = .clear ∧ s.scs.prog = none ∧ s.store.valid = true ∧
    s.store.pages = s.tables ∧ s.scs.checksum = s.store.checksum
  | .operating =>
    s.scs.busy = .clear ∧ s.scs.prog = none ∧ s.store.valid = true ∧
    s.store.pages = s.tables ∧ s.scs.checksum = s.store.checksum

/-- R18, R183: a valid header holds the checksum of the stored pages. -/
def storeHeaderOk (s : State) : Prop :=
  s.store.valid = true → s.store.checksum = tableChecksum s.store.pages

/-- Tables, store and setup port. -/
def TablesInv (s : State) : Prop :=
  MemoryOk s ∧ SelectionOk s ∧ storeHeaderOk s ∧ stationTablesOk s s.scs.station

/-! ### Notice Queue and line (R122, R143, R149) -/

/-- R143: at most 8 entries, no two of one key, classes 0–4, attempts 0–5. -/
def EntriesOk (es : List Entry) : Prop :=
  es.length ≤ Config.queueSize ∧ (es.map Entry.key).Nodup ∧
  ∀ e ∈ es, e.cls ≤ 4 ∧ e.attempts ≤ 5

/-- R144: the entries stand by class and, within one class, by the steps of common time taken before their
posts. -/
def UrgencyOrder (es : List Entry) : Prop :=
  es.Pairwise fun a b => a.cls < b.cls ∨ (a.cls = b.cls ∧ a.steps ≤ b.steps)

/-- R144: the entries stand in urgency order, post times compared too. -/
def InUrgencyOrder (es : List Entry) : Prop := es.Pairwise fun a b => a.before b = true

/-- Common time and every post time lie within 2^31 ms after `base`, where the comparison of times is an
order (log 13). -/
def PostedAfter (base : Time) (s : State) : Prop :=
  0 ≤ timeDiff s.prt.time base ∧
  ∀ e ∈ s.nq.entries ++ s.nq.held.toList, 0 ≤ timeDiff e.postTime base

/-- R143, R149: an entry is in flight exactly when it is the one QLC sends, and the held post waits
for that entry. -/
def FlightOk (s : State) : Prop :=
  (∀ e ∈ s.nq.entries, (e.inFlight = true ↔ s.qlc.inFlight = some e.key)) ∧
  (∀ k, s.qlc.inFlight = some k → ∃ e ∈ s.nq.entries, e.key = k) ∧
  (∀ h, s.nq.held = some h →
    s.qlc.inFlight = some h.key ∧ h.inFlight = false ∧ h.cls ≤ 4 ∧ h.attempts ≤ 5)

/-- R122, R124, R127: a holdoff runs only on an IDLE line, a frame is sent only on a BUSY one, and
neither while the station sends nothing. -/
def LineOk (s : State) : Prop :=
  (s.qlc.holdoff.isSome = true → s.qlc.busy = false) ∧
  (s.qlc.inFlight.isSome = true → s.qlc.busy = true) ∧
  (s.active = false → s.qlc.holdoff = none ∧ s.qlc.inFlight = none)

/-- The serial numbers of the entries lie below the next one, their steps at or below the steps taken
(log 13). -/
def OrdersOk (s : State) : Prop :=
  (s.nq.entries.map (·.order)).Nodup ∧
  (∀ e ∈ s.nq.entries, e.order < s.nq.nextOrder ∧ e.steps ≤ s.nq.steps) ∧
  ∀ h, s.nq.held = some h →
    h.order < s.nq.nextOrder ∧ h.steps ≤ s.nq.steps ∧ ∀ e ∈ s.nq.entries, e.order ≠ h.order

/-- R122, R126, R133: the ranges of the line's counters; the sequence register is never 0. -/
def CountersOk (q : Qlc) : Prop :=
  q.seqReg ≠ 0 ∧ q.rotation ≤ 31 ∧ q.quiet ≤ 255 ∧ q.drawn ≤ 7 ∧ q.idleIn ≤ 125

/-- R122, R123, R134: no frame is being read while the line is IDLE or this station drives it. -/
def ReceiveOk (s : State) : Prop :=
  (∀ r, s.qlc.rx = some r → s.qlc.busy = true ∧ s.qlc.inFlight = none) ∧
  ∀ r, s.qlc.ownRead = some r → s.qlc.inFlight.isSome = true

/-- R123, R134: no record holds all the characters that its length byte gives: such a frame has ended, and is
checked in the step in which it ends. -/
def FramesOpen (s : State) : Prop :=
  ∀ r, s.qlc.rx = some r ∨ s.qlc.ownRead = some r → frameWhole r.chars = false

/-- Notice Queue and line. -/
def QueueInv (s : State) : Prop :=
  EntriesOk s.nq.entries ∧ UrgencyOrder s.nq.entries ∧ FlightOk s ∧ LineOk s ∧ OrdersOk s ∧
  CountersOk s.qlc

/-! ### Track Table (R59–R62, R76) -/

/-- R59–R62: one track record. -/
def TrackOk (t : Track) : Prop :=
  1 ≤ t.sightings.length ∧ t.sightings.length ≤ Config.maxSightings ∧
  (t.sightings.map (·.station)).Nodup ∧
  t.peakSpeed = peakSpeedOf t.sightings ∧ t.peakDust = peakDustOf t.sightings ∧
  t.w = t.sightings.any (·.w) ∧
  (t.close.isSome = true ↔ t.state = .fading) ∧ (t.onset = none ↔ t.placeholder = true) ∧
  (t.state = .confirmed → t.confirmed = true) ∧ (t.state = .opened → t.confirmed = false)

/-- R76: 16 slots, no two tracks of one id, every track as R59–R62 say. -/
def TracksInv (s : State) : Prop :=
  s.tracks.length = Config.trackSlots ∧ ((liveTracks s.tracks).map (·.id)).Nodup ∧
  ∀ t ∈ liveTracks s.tracks, TrackOk t

/-! ### Roster and common time (R158, R159, R165, R168–R170) -/

/-- R158, R159: entry `n` of the roster of station `own`. -/
def RosterEntryOk (own n : Nat) (e : RosterEntry) : Prop :=
  (e.state = .self ↔ n = own) ∧
  (e.deadline.isSome = true ↔ e.state = .present ∨ e.state = .mismatch)

/-- R158, R159: the roster. -/
def RosterOk (s : State) : Prop :=
  1 ≤ s.scs.own ∧ s.scs.own ≤ 32 ∧ s.prt.roster.length = 32 ∧
  ∀ k, ∀ e, s.prt.roster[k]? = some e → RosterEntryOk s.scs.own (k + 1) e

/-- R165, R168–R170: trim, slew, lock and offsets. -/
def TimeOk (p : Prt) : Prop :=
  -64 ≤ p.trim ∧ p.trim ≤ 64 ∧ -8 ≤ p.slew ∧ p.slew ≤ 8 ∧ p.lockCount ≤ 3 ∧
  (p.lock = .locked ↔ p.lockCount = 3) ∧ (p.offsets.map (·.station)).Nodup

/-- Roster and common time. -/
def TimeInv (s : State) : Prop := RosterOk s ∧ TimeOk s.prt

/-! ### Sensor front end (R20–R36) -/

/-- The ranges of the sensor front end. -/
def SensorInv (s : State) : Prop :=
  s.sfe.anemoCount ≤ 255 ∧ s.sfe.dustCount ≤ 255 ∧
  s.sfe.warming ≤ Config.anemoWindow ∧ s.sfe.anemoWindow.length = s.sfe.warming ∧
  (s.sfe.s60.isSome = true ↔ s.sfe.warming = Config.anemoWindow) ∧
  s.sfe.g3 ≤ 600 ∧ (∀ v, s.sfe.s60 = some v → v ≤ 600) ∧
  s.sfe.raw ≤ 15 ∧ s.sfe.accepted ≤ 15 ∧ (∀ v, s.sfe.candidate = some v → v ≤ 15) ∧
  s.sfe.run ≤ 3 ∧ s.sfe.vaneRecord.length ≤ Config.vaneWindow ∧
  s.sfe.dustWindow.length ≤ Config.dustWindow ∧ s.sfe.dustNumber ≤ 1023 ∧
  s.sfe.lampLow ≤ Config.lampLowCount ∧ s.sfe.silentRun ≤ Config.silentCount

/-! ### Zone states (R99, R100, R112) -/

/-- R99, R101, R102, R112: one zone state: a hold runs only above CLEAR, an acknowledgement stands only
at WARN or ALARM, a LOST deadline runs only while LOST, and a station that takes no part keeps CLEAR. -/
def ZoneOk (active : Bool) (z : ZoneState) : Prop :=
  (z.hold.isSome = true → z.level ≠ .clear) ∧
  (z.acked = true → z.level = .warn ∨ z.level = .alarm) ∧
  (z.lostDeadline.isSome = true → z.lost = true) ∧
  (active = false → z.level = .clear ∧ z.hold = none)

/-- R99: the zone states stand in ascending zone number. -/
def ZonesInv (s : State) : Prop :=
  (s.zev.zones.map (·.zone)).Pairwise (· < ·) ∧ ∀ z ∈ s.zev.zones, ZoneOk s.active z

/-! ### Words that the statements share -/

/-- The commands that are taken while RST is held low: the resets themselves, the corrections of
common time (log 8) and the rise of SSEL (log 10). -/
def actsWhileHeld : Instr → Bool
  | .powerOn _ _ _ => true
  | .rstAssert => true
  | .lineReset _ _ _ => true
  | .slewStep => true
  | .trimStep => true
  | .transactionAbandon => true
  | _ => false

/-- R180: entry pointer and byte offset after an access to ENTRY DATA. -/
def advancedEntry (c : Scs) : Nat × Nat :=
  if c.byteOff + 1 < entryLen c.tableSel then (c.entryPtr, c.byteOff + 1)
  else (if c.entryPtr = 15 then 15 else c.entryPtr + 1, 0)

/-- R99, R121: a zone state as it is set at a reset and at each entry into JOINING. -/
def ZoneIsSet (m : Memory) (z : ZoneState) : Prop :=
  z.pair = (zoneRec m z.zone).pair ∧ z.demand = .clear ∧ z.level = .clear ∧ z.hold = none ∧
  z.acked = false ∧ z.contribution = .clear ∧ z.lost = (zoneRec m z.zone).kind.mirrors ∧
  z.lostDeadline = none ∧ z.degraded = (zoneRec m z.zone).kind.mirrors ∧ z.announced = .clear

/-- R104: zone `k` is the mirror source of an owned MIRROR or COMBINED zone. -/
def IsMirrorSource (m : Memory) (own k : Nat) : Prop :=
  k ≤ 47 ∧ ∃ i ∈ ownedZones m own, (zoneRec m i).kind.mirrors = true ∧ (zoneRec m i).source = k

/-- R104: a received record as it is set up. -/
def ReceivedIsSet (r : Received) : Prop :=
  r.received = false ∧ r.level = .clear ∧ r.lostMark = false ∧ r.receipt = 0

/-- R159: a cleared roster entry of station `n` at station `own`. -/
def EntryIsCleared (own n : Nat) (e : RosterEntry) : Prop :=
  e.state = (if n = own then .self else .absent) ∧ e.deadline = none ∧ e.announced = none

/-- R83, R104, R121, R157, R159, R174: TRT, NQ, roster, offset set and ZEV of `t` as a clearing leaves
them, with the working tables `m`, at station `own`. -/
def BlocksCleared (m : Memory) (own : Nat) (t : State) : Prop :=
  t.tracks = List.replicate 16 none ∧ t.nq.entries = [] ∧ t.nq.held = none ∧ t.prt.offsets = [] ∧
  (∀ n, 1 ≤ n → n ≤ 32 → ∃ e, t.rosterOf n = some e ∧ EntryIsCleared own n e) ∧
  t.zev.zones.map (·.zone) = ownedZones m own ∧ (∀ z ∈ t.zev.zones, ZoneIsSet m z) ∧
  (∀ r ∈ t.zev.received, ReceivedIsSet r) ∧ (t.zev.received.map (·.zone)).Nodup ∧
  ∀ k, k ∈ t.zev.received.map (·.zone) ↔ IsMirrorSource m own k

/-- R184: `t` has entered JOINING from `s`: the blocks cleared, time state, trim and tables kept. -/
def JoiningEntered (s t : State) : Prop :=
  t.scs.station = .joining ∧ t.scs.joining = 0 ∧ BlocksCleared s.tables s.scs.own t ∧
  t.tables = s.tables ∧ t.prt.time = s.prt.time ∧ t.prt.trim = s.prt.trim ∧
  t.prt.lock = s.prt.lock ∧ t.prt.lockCount = s.prt.lockCount ∧ t.prt.lastCorr = s.prt.lastCorr ∧
  t.scs.faults = s.scs.faults

/-- `t` differs from `s` at most in Notice Queue, line controller and raised events: what a post and
QLC's following of it may change. -/
def OnlyPosts (s t : State) : Prop :=
  t = { s with nq := t.nq, qlc := t.qlc, raised := t.raised }

/-- R192: the ranges of a SIGHTING payload that `sender` can send. -/
def SightingInRange (sender : Nat) (p : SightingNotice) : Prop :=
  1 ≤ p.id.origin ∧ p.id.origin ≤ 32 ∧ p.id.seq ≤ 255 ∧ (p.form = .new → p.id.origin = sender) ∧
  p.sector ≤ 15 ∧ p.speed ≤ 600 ∧ (∀ d, p.dust = some d → d ≤ 1023) ∧ p.updates ≤ 3

/-- R192: the ranges of a PRESENCE payload. -/
def AnnouncedInRange (a : Announced) : Prop :=
  -64 ≤ a.trim ∧ a.trim ≤ 64 ∧ (∀ v, a.s60 = some v → v ≤ 600) ∧ a.pairs.length ≤ 4 ∧
  ∀ p ∈ a.pairs, p.zone ≤ 255

/-- R42: a sample with the derived speeds of `f` qualifies for the own entry. -/
def qualifiesFor (s : State) (f : Sfe) : Prop :=
  s.gustFloor ≤ f.g3 ∧ s.onsetRatio * f.s60.getD 0 ≤ 16 * f.g3

/-- R101, R102, R112: `z'` is `z` after one run of the level machine on `input` at `now`, in a zone of
hold time `hold` seconds: a rise is made at once, an equal input ends a hold, a fall waits for the hold
deadline and is one level. -/
def LevelFollows (input : Level) (now : Time) (hold : Nat) (z z' : ZoneState) : Prop :=
  (z.level.toNat < input.toNat → z'.level = input ∧ z'.hold = none ∧ z'.acked = false) ∧
  (input = z.level → z'.level = z.level ∧ z'.hold = none ∧ z'.acked = z.acked) ∧
  (input.toNat < z.level.toNat →
    (z.hold = none →
      z'.level = z.level ∧ z'.hold = some (now + seconds hold) ∧ z'.acked = z.acked) ∧
    (∀ d, z.hold = some d → reached now d = false →
      z'.level = z.level ∧ z'.hold = some d ∧ z'.acked = z.acked) ∧
    (∀ d, z.hold = some d → reached now d = true →
      z'.level.toNat + 1 = z.level.toNat ∧
      z'.hold = (if input.toNat < z'.level.toNat then some (now + seconds hold) else none) ∧
      z'.acked = (z.acked && decide (z'.level = .warn ∨ z'.level = .alarm))))

/-- R106–R111: `z'` is `z` after the mirror part of an evaluation at `now`, in a zone of hold time `hold`
seconds, for a source that is GOOD or not and its received record `r`. -/
def MirrorFollows (good : Prop) (r : Received) (now : Time) (hold : Nat) (z z' : ZoneState) : Prop :=
  (good → z'.contribution = r.level ∧ z'.lost = false ∧ z'.lostDeadline = none ∧
    z'.degraded = r.lostMark) ∧
  (¬good → z'.lost = true ∧ z'.degraded = true) ∧
  (¬good → z.lost = false → z'.contribution = z.contribution ∧
    z'.lostDeadline = some (now + seconds hold)) ∧
  (¬good → z.lost = true →
    (z.lostDeadline = none → z'.contribution = z.contribution ∧ z'.lostDeadline = none) ∧
    (∀ d, z.lostDeadline = some d → reached now d = false →
      z'.contribution = z.contribution ∧ z'.lostDeadline = some d) ∧
    (∀ d, z.lostDeadline = some d → reached now d = true →
      (z.contribution = .clear ∨ z.contribution = .watch →
        z'.contribution = z.contribution ∧ z'.lostDeadline = none) ∧
      (z.contribution = .warn → z'.contribution = .watch ∧ z'.lostDeadline = none) ∧
      (z.contribution = .alarm → z'.contribution = .warn ∧
        z'.lostDeadline = some (now + seconds hold))))

/-- R106: the source of a zone is GOOD: its owner's roster entry is PRESENT, and a report of it has been
taken and is at most 24 000 ms old. -/
def SourceIsGood (s : State) (source : Nat) (r : Received) : Prop :=
  s.rosterState (zoneRec s.tables source).owner = some .present ∧ r.received = true ∧
  timeDiff s.prt.time r.receipt ≤ 24000

/-- The sighting record that a SIGHTING notice from `station` carries (R63). -/
def SightingNotice.record (p : SightingNotice) (station : Nat) : Sighting :=
  { station := station, time := p.time, speed := p.speed, dust := p.dust, w := p.w,
    trusted := p.trusted, updates := p.updates }

/-! ### Words of single statements -/

/-- R86, R166, R172: what common time raises as it reaches `t` at the station `own`. -/
def countEvents (own : Nat) (t : Time) : List Instr :=
  (if t.toNat % 1000 = 0 then [.tick] else []) ++
  (if t.toNat % 8000 = 0 then [.epochBoundary] else []) ++
  (if t.toNat % 8000 = own * 200 then [.schedulePoint] else [])

/-- R73–R75: `after` is `before` once every fade and close deadline that common time `now` has reached has
passed. (A close time of 0, which no valid site record has, is reached as the fade sets it.) -/
def TracksPassed (now : Time) (closeTime : Nat) (before after : List (Option Track)) : Prop :=
  after.length = before.length ∧ ∀ k : Nat,
    (before[k]? = some none → after[k]? = some none) ∧
    ∀ t, before[k]? = some (some t) →
      (t.state ≠ .fading → reached now t.fade = true → after[k]? = some
        (if closeTime = 0 then none
          else some { t with state := .fading, close := some (now + seconds closeTime) })) ∧
      (∀ d, t.state = .fading → t.close = some d → reached now d = true → after[k]? = some none) ∧
      ((t.state ≠ .fading → reached now t.fade = false) →
        (t.state = .fading → ∀ d, t.close = some d → reached now d = false) →
        after[k]? = some (some t))

/-- R162: the silence deadline of a roster entry has been reached at `now`. -/
def EntrySilent (now : Time) (e : RosterEntry) : Prop :=
  (e.state = .present ∨ e.state = .mismatch) ∧ ∃ d, e.deadline = some d ∧ reached now d = true

/-- R75, R162: in `t` every stored deadline of `s` that the common time of `t` has reached has passed, and
tracks and roster entries stand else as in `s`. -/
def DeadlinesPassed (s t : State) : Prop :=
  TracksPassed t.prt.time (site s.tables).closeTime s.tracks t.tracks ∧
  (∀ n e, s.rosterOf n = some e →
    (n ≤ 32 → EntrySilent t.prt.time e →
      t.rosterOf n = some { e with state := .silent, deadline := none }) ∧
    (¬EntrySilent t.prt.time e → t.rosterOf n = some e))

/-- R73, R74, R163, R85: what the deadlines of `s` raise that common time `now` has reached: one evaluation for
each fade and each removal, and for each station gone SILENT that owns a mirror source. -/
def passedEvents (s : State) (now : Time) : List Instr :=
  let live := liveTracks s.tracks
  let fades := live.countP fun t => t.fadeDue now
  let removals := live.countP (fun t => t.closeDue now) + if (site s.tables).closeTime = 0 then fades else 0
  let silences := (List.range 32).countP fun k =>
    s.ownsSource (k + 1) &&
      match s.rosterOf (k + 1) with
      | some e => e.silenceDue now
      | none => false
  List.replicate (fades + removals + silences) .evaluation

/-- R75, R86, R162, R166, R172: what a gained count from `s` to `t` does beside moving common time: it raises
the events of the value reached, and the deadlines reached pass; nothing while RST is low. -/
def CountTaken (s t : State) : Prop :=
  (s.pins.rstLow = false → DeadlinesPassed s t ∧
    t.raised = s.raised ++ countEvents s.scs.own t.prt.time ++ passedEvents s t.prt.time) ∧
  (s.pins.rstLow = true →
    t.tracks = s.tracks ∧ t.prt.roster = s.prt.roster ∧ t.raised = s.raised)

/-- R75, R162, R164: `t` holds tracks and roster of `s` once `n` counts have been made, the deadlines that each
reaches passing with it; `raised` is what those raise. -/
def CountsPassed : Nat → State → State → List Instr → Prop
  | 0, s, t, raised => t.tracks = s.tracks ∧ t.prt.roster = s.prt.roster ∧ raised = []
  | n + 1, s, t, raised => ∃ u rest,
    u = { s with
      tracks := u.tracks, prt := { s.prt with time := s.prt.time + 1, roster := u.prt.roster } } ∧
    DeadlinesPassed s u ∧ raised = passedEvents s u.prt.time ++ rest ∧ CountsPassed n u t rest

/-- R168: the millisecond is the 64th of one with a slew in progress. -/
def Prt.slewActs (p : Prt) : Bool := decide (p.slew ≠ 0 ∧ 63 ≤ p.slewPhase)

/-- R169: the millisecond is the last of the trim's interval of floor(65536 / |trim|). -/
def Prt.trimActs (p : Prt) : Bool := decide (p.trim ≠ 0 ∧ 65536 / p.trim.natAbs ≤ p.trimPhase + 1)

/-- R164: the gains of the millisecond. -/
def Prt.gains (p : Prt) : Nat :=
  (if p.slewActs = true ∧ 0 < p.slew then 1 else 0) + (if p.trimActs = true ∧ 0 < p.trim then 1 else 0)

/-- R164: the withholds of the millisecond, with those it owes. -/
def Prt.owes (p : Prt) : Nat :=
  p.withheld + (if p.slewActs = true ∧ p.slew < 0 then 1 else 0) +
    (if p.trimActs = true ∧ p.trim < 0 then 1 else 0)

/-- R164: the counts of the millisecond: its gains, and its own unless it is withheld. -/
def Prt.counts (p : Prt) : Nat := p.gains + (if p.owes = 0 then 1 else 0)

/-- R168, R169: slew, trim phase and slew phase after the millisecond, its counts made. -/
def Prt.afterMs (p : Prt) (withheld : Nat) : Prt :=
  { p with
    time := p.time + BitVec.ofNat 32 p.counts
    withheld := withheld
    slew := if p.slewActs = true then (if 0 < p.slew then p.slew - 1 else p.slew + 1) else p.slew
    slewPhase :=
      if p.slew = 0 then p.slewPhase else if p.slewActs = true then 0 else p.slewPhase + 1
    trimPhase :=
      if p.trim = 0 then p.trimPhase else if p.trimActs = true then 0 else p.trimPhase + 1 }

/-- R19, R26, R86, R122, R164, R166, R172, R177: `t` is `s` after one millisecond of the oscillator with RST
high, common time counted `n` times: which events are raised, and how the counters stand (log 10: SSEL; log 16:
the filter of a line out of service; log 17: the line's waits). -/
def MillisecondPasses (n : Nat) (s t : State) : Prop :=
  (∀ e, e ∈ [Instr.tick, .epochBoundary, .schedulePoint] → (e ∈ t.raised ↔
    ∃ k, k < n ∧ e ∈ countEvents s.scs.own (s.prt.time + BitVec.ofNat 32 (k + 1)))) ∧
  (∀ v l, .sampleEvent v l ∈ t.raised ↔ v = s.pins.vane ∧ l = s.pins.lamp ∧ 249 ≤ s.sfe.phase) ∧
  (∀ l, .supprTransition l ∈ t.raised ↔ l = s.pins.suppr ∧ s.sfe.supprIn = true ∧
    s.pins.suppr ≠ s.sfe.supprLevel ∧ 9 ≤ s.sfe.supprFilter) ∧
  (∀ l, .ackTransition l ∈ t.raised ↔ l = s.pins.ack ∧ s.sfe.ackIn = true ∧
    s.pins.ack ≠ s.sfe.ackLevel ∧ 9 ≤ s.sfe.ackFilter) ∧
  (.windowExpiry ∈ t.raised ↔ ∃ n, s.scs.windowTimer = some n ∧ 29999 ≤ n) ∧
  (∀ q, .holdoffExpiry q ∈ t.raised ↔ q = t.qlc.quiet ∧ s.qlc.busy = false ∧
    ∃ h, s.qlc.holdoff = some h ∧ h.length ≤ t.qlc.quiet) ∧
  (.lineIdle ∈ t.raised ↔ s.qlc.busy = true ∧ s.qlc.inFlight = none ∧ s.qlc.idleIn ≤ 96) ∧
  t.sfe = { s.sfe with
    phase := if 249 ≤ s.sfe.phase then 0 else s.sfe.phase + 1
    supprFilter :=
      if s.sfe.supprIn = true ∧ s.pins.suppr ≠ s.sfe.supprLevel ∧ s.sfe.supprFilter < 9 then
        s.sfe.supprFilter + 1
      else 0
    ackFilter :=
      if s.sfe.ackIn = true ∧ s.pins.ack ≠ s.sfe.ackLevel ∧ s.sfe.ackFilter < 9 then
        s.sfe.ackFilter + 1
      else 0 } ∧
  t.qlc = { s.qlc with
    quiet :=
      if s.qlc.busy then s.qlc.quiet else min (s.qlc.quiet + (s.qlc.quietFrac + 96) / 25) 255
    quietFrac := if s.qlc.busy then s.qlc.quietFrac else (s.qlc.quietFrac + 96) % 25
    idleIn := if s.qlc.busy && s.qlc.inFlight.isNone then s.qlc.idleIn - 96 else s.qlc.idleIn } ∧
  t.scs = { s.scs with
    windowTimer := s.scs.windowTimer.map fun n => min (n + 1) 30000
    sdout := if s.pins.sselHigh then none else s.scs.sdout
    sselSeen := s.scs.sselSeen || s.pins.sselHigh } ∧
  t.pins = s.pins

/-- R134: the characters of the frame being read, with those brought, are `frame`. -/
def FrameArrives (s : State) (r : RxFrame) (brought frame : List Byte) : Prop :=
  s.pins.rstLow = false ∧ s.qlc.rx = some r ∧ r.chars ++ brought = frame

/-- R123, R134: with the characters brought the frame has those its length byte gives, and ends; `f` is the
frame without its tail. -/
def FrameEnds (s : State) (r : RxFrame) (brought f : List Byte) : Prop :=
  FrameArrives s r brought (r.chars ++ brought) ∧ f = frameChars (r.chars ++ brought) ∧
  frameWhole (r.chars ++ brought) = true

/-- R136: the CRC bytes of a frame are there and right. -/
def CrcRight (f : List Byte) : Prop :=
  7 ≤ byteAt f 1 ∧ f.length = byteAt f 1 + 2 ∧
  crc16 (f.take (byteAt f 1)) = BitVec.ofNat 16 (pairAt f (byteAt f 1))

/-- R136, R192: the kind is known, and the length and a PRESENCE's pair count are those of the kind. -/
def FormRight (f : List Byte) : Prop :=
  (byteAt f 0 = 0x31 ∧ byteAt f 15 ≤ 4 ∧ byteAt f 1 = 16 + 2 * byteAt f 15) ∨
  (byteAt f 0 = 0x32 ∧ byteAt f 1 = 20) ∨ (byteAt f 0 = 0x33 ∧ byteAt f 1 = 9)

/-- R138, R192: the payload fields of the frame's kind are in range. -/
def FieldsRight (f : List Byte) : Prop :=
  (byteAt f 0 = 0x31 → (byteAt f 7 = 4 ∨ byteAt f 7 = 5) ∧ byteAt f 8 % 4 ≤ 2 ∧
    (byteAt f 11 ≤ 64 ∨ 192 ≤ byteAt f 11) ∧ (pairAt f 13 ≤ 600 ∨ pairAt f 13 = 0xFFFF) ∧
    ∀ k, k < byteAt f 15 → byteAt f (17 + 2 * k) % 128 ≤ 3) ∧
  (byteAt f 0 = 0x32 → 1 ≤ byteAt f 7 ∧ byteAt f 7 ≤ 32 ∧ byteAt f 9 % 4 ≤ 2 ∧
    (byteAt f 9 % 4 = 0 → byteAt f 7 = byteAt f 2) ∧ byteAt f 14 ≤ 15 ∧ pairAt f 15 ≤ 600 ∧
    (byteAt f 9 / 64 % 2 = 1 → pairAt f 17 ≤ 1023) ∧
    (byteAt f 9 / 64 % 2 = 0 → pairAt f 17 = 0xFFFF) ∧ byteAt f 19 ≤ 3) ∧
  (byteAt f 0 = 0x33 → byteAt f 8 ≤ 3)

/-- R138: a SIGHTING's time lies outside the allowed window. -/
def TimeStale (s : State) (f : List Byte) : Prop :=
  byteAt f 0 = 0x32 ∧
  (earlier (timeAt f 10)
      (s.prt.time - seconds ((site s.tables).fadeTime + (site s.tables).closeTime)) = true ∨
    earlier (s.prt.time + 2000) (timeAt f 10) = true)

/-- R122: the events that wait once characters of a frame have been read: they begin the wait for IDLE
again. -/
def State.raisedAfter (s : State) : List Instr := s.raised.filter fun e => decide (e ≠ .lineIdle)

/-- R133, R141: `s` after the frame `f` has been read and rejected, with nothing else done; `rotated` says that
it passed check 1. -/
def State.rejected (s : State) (f : List Byte) (rotated : Bool) (cause : Nat) : State :=
  { s with
    qlc := { s.qlc with
      idleIn := 100, rx := none
      rotation := if rotated then (s.qlc.rotation + 1) % 32 else s.qlc.rotation
      rejectCause := cause, rejectSender := f.getD 2 0, rejectKind := f.getD 0 0 }
    raised := s.raisedAfter }

/-- R160: the heard notice of `n` has been taken between `s` and `t`. -/
def HeardFrom (s t : State) (n : Nat) : Prop :=
  t.prt = { s.prt with roster := t.prt.roster } ∧ (∀ k, k ≠ n → t.rosterOf k = s.rosterOf k) ∧
  ∃ e, s.rosterOf n = some e ∧ t.rosterOf n = some { e with
    state := if e.state = .mismatch then .mismatch else .present
    lastHeard := s.prt.time, deadline := some (s.prt.time + 24000) }

/-- R163: what the heard notice of `n` raises. -/
def heardEvents (s : State) (n : Nat) : List Instr :=
  if (s.rosterState n = some .absent ∨ s.rosterState n = some .silent) ∧ s.ownsSource n = true then
    [.evaluation]
  else []

/-- R137: checks 3 to 5 pass for every kind: the sender is a listed peer whose entry is not MISMATCH. -/
def FromPeer (s : State) (sender : Nat) : Prop :=
  stationPresent s.tables sender = true ∧ sender ≠ s.scs.own ∧ s.rosterState sender ≠ some .mismatch

/-- R122, R133: the line record after a whole frame that passed check 1 and was not rejected. -/
def Qlc.afterFrame (q : Qlc) : Qlc :=
  { q with idleIn := 100, rx := none, rotation := (q.rotation + 1) % 32 }

/-- R141: the same after a frame that was rejected. -/
def Qlc.afterReject (q : Qlc) (cause sender : Nat) (kind : Byte) : Qlc :=
  { q.afterFrame with rejectCause := cause, rejectSender := byteOf sender, rejectKind := kind }

/-- R71, R73: `u` stands completed after an admission to a track whose confirmed mark was `before`; where
common time has already reached the fade deadline so set, it has faded since. -/
def TrackCompleted (s : State) (before : Bool) (u : Track) : Prop :=
  u.peakSpeed = peakSpeedOf u.sightings ∧ u.peakDust = peakDustOf u.sightings ∧
  u.w = u.sightings.any (·.w) ∧ u.confirmed = (before || confirms s.tables u.sightings) ∧
  u.fade = u.last + seconds (site s.tables).fadeTime ∧
  (reached s.prt.time u.fade = false →
    u.state = (if u.confirmed then .confirmed else .opened) ∧ u.close = none) ∧
  (reached s.prt.time u.fade = true →
    u.state = .fading ∧ u.close = some (s.prt.time + seconds (site s.tables).closeTime))

/-- R71, R73: what a fade just after the admission raises. -/
def fadeEvents (s : State) (u : Track) : List Instr :=
  if reached s.prt.time u.fade then [.evaluation] else []

/-- R64, R69: `u` is the track a SIGHTING of `sender` creates: a placeholder unless it is a NEW. -/
def TrackCreated (s : State) (p : SightingNotice) (sender : Nat) (updateTime : Time) (u : Track) : Prop :=
  u.id = p.id ∧ u.sector = p.sector ∧ u.sightings = [p.record sender] ∧
  u.placeholder = decide (p.form ≠ .new) ∧ u.onset = (if p.form = .new then some p.time else none) ∧
  u.last = (if p.form = .update then laterTime p.time updateTime else p.time) ∧
  TrackCompleted s false u

/-- R67, R68: what an admission to a held track keeps. -/
def TrackKept (old u : Track) : Prop :=
  u.id = old.id ∧ u.sector = old.sector ∧ u.onset = old.onset ∧ u.placeholder = old.placeholder

/-- R67: the sighting `x` of a JOIN placed in `old` gives `u`. -/
def SightingJoined (old : Track) (x : Sighting) (u : Track) : Prop :=
  u.sightings = placeSighting old.sightings x ∧ u.last = laterTime old.last x.time

/-- R68: the values `x` of an UPDATE placed in `old` give `u` (log 21: the times that move its age). -/
def SightingUpdated (old : Track) (x : Sighting) (updateTime : Time) (u : Track) : Prop :=
  ((sightingOf old.sightings x.station).isSome = true →
    u.sightings = old.sightings.map (fun y =>
      if y.station = x.station then
        { y with
          speed := max y.speed x.speed, dust := maxDust y.dust x.dust, w := y.w || x.w
          updates := max y.updates x.updates }
      else y) ∧
    u.last = laterTime old.last updateTime) ∧
  (sightingOf old.sightings x.station = none →
    u.sightings = placeSighting old.sightings x ∧
    u.last = laterTime (laterTime old.last x.time) updateTime)

/-- The slot of `s` that held `old` holds `new` in `t`, and every other slot is as it was. -/
def SlotChanged (s t : State) (old new : Track) : Prop :=
  ∀ k : Nat, (s.tracks[k]? = some (some old) → t.tracks[k]? = some (some new)) ∧
    (s.tracks[k]? ≠ some (some old) → t.tracks[k]? = s.tracks[k]?)

/-- R76: `u` has taken the lowest-numbered free slot, or in a full table the slot of the victim. -/
def TrackPlaced (s t : State) (time : Time) (u : Track) : Prop :=
  (∃ k : Nat, s.tracks[k]? = some none ∧ (∀ j : Nat, j < k → s.tracks[j]? ≠ some none) ∧
    t.tracks = s.tracks.set k (some u)) ∨
  (none ∉ s.tracks ∧ ∃ v, victim (liveTracks s.tracks) time = some v ∧ SlotChanged s t v u)

/-- R78: the table is full and holds no victim. -/
def NoPlace (s : State) (time : Time) : Prop :=
  none ∉ s.tracks ∧ victim (liveTracks s.tracks) time = none

/-- R54: the update fires at peaks `speed` and `dust`. -/
def UpdateFires (step : Nat) (e : Episode) (speed : Nat) (dust : Option Nat) : Prop :=
  (e.lastSpeed < speed ∧ e.lastSpeed * (100 + step) ≤ speed * 100) ∨
  (dust.isSome = true ∧ e.lastDust = none) ∨
  ∃ d l, dust = some d ∧ e.lastDust = some l ∧ l < d ∧ l * (100 + step) ≤ d * 100

/-- R6, R47: lane `l` leads from `source` to `target` and carries `sector`. -/
def LaneCarries (l : LaneRec) (source target sector : Nat) : Prop :=
  l.source = source ∧ l.target = target ∧ l.mask.getLsbD sector = true

/-- R47: the deviation `found` that lane `l` gives a sighting at `sighted`, of a track of peak speed `speed`,
from an onset at `onset`: none where the sighting does not fit. -/
def FitFollows (m : Memory) (l : LaneRec) (speed : Nat) (sighted onset : Time) (found : Option Nat) : Prop :=
  let transit := l.distance * 10000 / max speed 10
  let expected := sighted + BitVec.ofNat 32 transit
  let tolerance := max ((site m).minimum * 1000) (transit * (site m).tolerance / 100)
  let deviation := (onset - expected).toInt.natAbs
  (earlier onset sighted = false ∧ deviation ≤ tolerance → found = some deviation) ∧
  (earlier onset sighted = true ∨ tolerance < deviation → found = none)

/-- R87–R89: `eta` is the ETA of a prediction that an approach entry of zone `i` and a sighting of `t` give. -/
def Predicts (m : Memory) (i : Nat) (t : Track) (now : Time) (eta : Int) : Prop :=
  ∃ a ∈ approaches m i, a.mask.getLsbD t.sector = true ∧
    ∃ x, sightingOf t.sightings a.source = some x ∧
      eta = (x.time + BitVec.ofNat 32 (a.distance * 10000 / max t.peakSpeed 10) - now).toInt

/-- R91: the predicate of code `code` on the flags. -/
def PredicateTrue (code : Nat) (g d w c : Prop) : Prop :=
  (code = 1 ∧ g) ∨ (code = 2 ∧ d) ∨ (code = 3 ∧ g ∧ d) ∨ (code = 4 ∧ (g ∨ d)) ∨ (code = 5 ∧ g ∧ ¬w) ∨
  (code = 6 ∧ d ∧ ¬w) ∨ (code = 7 ∧ g ∧ d ∧ ¬w) ∨ (code = 8 ∧ (g ∨ d) ∧ ¬w) ∨ (code = 9 ∧ c ∧ g) ∨
  (code = 10 ∧ c ∧ d) ∨ (code = 11 ∧ c ∧ g ∧ d) ∨ (code = 12 ∧ (d ∨ (g ∧ ¬w))) ∨
  (code = 13 ∧ g ∧ (d ∨ ¬w)) ∨ (code = 14 ∧ c ∧ (g ∨ d)) ∨ code = 15

/-- R90, R92: the zone's predicate is true of the track; absent dust counts as D where the predicate uses D. -/
def PredicateMet (z : ZoneRec) (t : Track) : Prop :=
  PredicateTrue z.predicate (z.gustLimit ≤ t.peakSpeed)
    ((∃ d, t.peakDust = some d ∧ z.dustLimit ≤ d) ∨
      (t.peakDust = none ∧ z.predicate ∈ [2, 3, 4, 6, 7, 8, 10, 11, 12, 13, 14]))
    (t.w = true) (t.confirmed = true)

/-- R92–R94: `called` is what a track that supports zone `i` at `eta`, its predicate true, calls for. -/
def CallFollows (m : Memory) (i : Nat) (t : Track) (eta : Int) (called : Option Level) : Prop :=
  let z := zoneRec m i
  let authority := ∃ x ∈ t.sightings, ∃ r, rankOf m x.station = some r ∧ r ≤ z.alarmRank
  let alarm := eta ≤ (z.alarmLead * 1000 : Nat) ∧ t.confirmed = true ∧ authority
  let warn := eta ≤ (z.warnLead * 1000 : Nat) ∧ t.confirmed = true
  let watch := eta ≤ (z.watchLead * 1000 : Nat)
  let capped := t.peakDust = none ∧ z.predicate ∈ [2, 3, 4, 6, 7, 8, 10, 11, 12, 13, 14]
  (alarm → capped → called = some .warn) ∧ (alarm → ¬capped → called = some .alarm) ∧
  (¬alarm → warn → called = some .warn) ∧ (¬alarm → ¬warn → watch → called = some .watch) ∧
  (¬alarm → ¬warn → ¬watch → called = none)

/-- R124: `e` is the selected notice of `s`: the first in the queue's order that is eligible and not in
flight. -/
def IsSelected (s : State) (e : Entry) : Prop :=
  e.inFlight = false ∧ s.eligible e.notice = true ∧ ∃ before after, s.nq.entries = before ++ e :: after ∧
    ∀ x ∈ before, x.inFlight = true ∨ s.eligible x.notice = false

/-- R125: the holdoff length of `e` at the station `own`. -/
def holdoffOf (own rotation drawn : Nat) (e : Entry) : Nat :=
  40 * e.cls + ((own - 1 + rotation) % 32 + 1) + e.attempts * drawn

/-- R125, R128: `t` is `s` once QLC has followed its queue and eligibility. -/
def QueueFollowed (s t : State) : Prop :=
  t = { s with
    qlc := { s.qlc with
      holdoff := t.qlc.holdoff, seqReg := t.qlc.seqReg, drawn := t.qlc.drawn }
    raised := t.raised } ∧
  (∀ h, s.qlc.holdoff = some h → t.qlc.seqReg = s.qlc.seqReg ∧ t.qlc.drawn = s.qlc.drawn ∧
    (∀ e, IsSelected s e → t.qlc.holdoff = some
      { selected := e.key, length := holdoffOf s.scs.own h.rotation s.qlc.drawn e
        rotation := h.rotation }) ∧
    ((∀ e, ¬IsSelected s e) → t.qlc.holdoff = none)) ∧
  (s.qlc.holdoff = none → s.qlc.busy = false → ∀ e, IsSelected s e →
    t.qlc.seqReg = seqAdvance s.qlc.seqReg ∧
    t.qlc.drawn = (seqAdvance s.qlc.seqReg).toNat % 8 ∧
    t.qlc.holdoff = some
      { selected := e.key, length := holdoffOf s.scs.own s.qlc.rotation t.qlc.drawn e
        rotation := s.qlc.rotation }) ∧
  (s.qlc.holdoff = none → s.qlc.busy = true ∨ (∀ e, ¬IsSelected s e) → t = s) ∧
  ∀ h, t.qlc.holdoff = some h →
    ((∃ q, .holdoffExpiry q ∈ t.raised) ↔ h.length ≤ t.qlc.quiet)

/-- R12, R13: lane `i` passes. -/
def LaneGood (m : Memory) (i : Nat) : Prop :=
  (laneRec m i).inRange = true ∧
  stationPresent m (laneRec m i).source = true ∧ stationPresent m (laneRec m i).target = true ∧
  (laneRec m i).source ≠ (laneRec m i).target ∧ (laneRec m i).mask ≠ 0

/-- R15: the chain of mirror sources goes on from zone `t`. -/
def ChainGoesOn (m : Memory) (t : Nat) : Prop :=
  zonePresent m t = true ∧ (zoneRec m t).kind.mirrors = true ∧
  (zoneRec m t).source < (site m).zoneCount ∧ (zoneRec m t).source ≤ 47 ∧ (zoneRec m t).source ≠ t

/-- R16: the present zones at positions below `i` with the owner of zone `i`. -/
def zonesBefore (m : Memory) (i : Nat) : List Nat :=
  (List.range i).filter fun k =>
    (zoneRec m k).present && decide ((zoneRec m k).owner = (zoneRec m i).owner)

/-- R12, R14–R16: what makes zone `i` fail, with the code of each, in the order of the checks. -/
def zoneFaults (m : Memory) (i : Nat) : List (Prop × SetupError) :=
  let z := zoneRec m i
  let source := z.source
  let second := (zoneRec m source).source
  let third := (zoneRec m second).source
  [(z.inRange = false ∨ (z.kind.computes = true ∧ ∃ a ∈ approaches m i, a.inRange = false), .range),
    (stationPresent m z.owner = false, .ownerAbsent),
    (z.warnLead < z.alarmLead ∨ z.watchLead < z.warnLead, .leadOrder),
    (z.kind.computes = true ∧ z.approachCount = 0, .approachMissing),
    (z.kind.computes = true ∧ ∃ a ∈ approaches m i, stationPresent m a.source = false, .approachSource),
    (z.kind.mirrors = true ∧ (site m).zoneCount ≤ source, .mirrorLimit),
    (z.kind.mirrors = true ∧ (zoneRec m source).present = false, .mirrorAbsent),
    (z.kind.mirrors = true ∧ (source = i ∨ (zoneRec m source).owner = z.owner), .mirrorSelf),
    (z.kind.mirrors = true ∧ ChainGoesOn m source ∧ ChainGoesOn m second ∧ ChainGoesOn m third,
      .mirrorDepth),
    (4 ≤ (zonesBefore m i).length, .ownerLoad),
    (∃ k ∈ zonesBefore m i, (zoneRec m k).pair = z.pair, .outputClash)]

/-- R12, R14–R16: zone `i` passes. -/
def ZoneGood (m : Memory) (i : Nat) : Prop := ∀ x ∈ zoneFaults m i, ¬x.1

/-- R12: the site record and every present station pass. -/
def SiteGood (m : Memory) : Prop :=
  (site m).inRange = true ∧ ∀ n, stationPresent m n = true → (stationRec m n).inRange = true

/-- R145: an entry of `t` is a new one of `n` with class `cls`, posted in `s`. -/
def PostedAnew (s t : State) (n : Notice) (cls : Nat) : Prop :=
  ∃ e ∈ t.nq.entries, e.notice = n ∧ e.cls = cls ∧ e.postTime = s.prt.time ∧ e.attempts = 0 ∧
    e.inFlight = false

end Sys2Proof.Machine
end

