-- ==== Sys2Proof/Certificates/Slice0/Obligations.lean ====
section
/-! DEFINITION. The statements for the provers. A statement whose docstring names a log entry rests on
that choice of the model for the clause named. -/

open Sys2Proof Sys2Proof.Machine

/-! ### The queue of commands and the idle part -/

/-- A step with the command `c` at the front of the queue is the effect of `c` on the rest. -/
def Obligations.StepTakesFront : Prop :=
  ∀ (c : Instr) (rest : List Instr) (s : State),
    step { s with pending := c :: rest } = exec c { s with pending := rest }

/-- Every command ends in a next state from every state, and leaves the queue of commands alone. -/
def Obligations.EveryCommandCompletes : Prop :=
  ∀ (c : Instr) (s : State), ∃ t, exec c s = .next t ∧ t.pending = s.pending

/-- With nothing waiting a step is one millisecond (log 3: the idle part's step): common time counts one
(R164), or omits the count that a withhold owes, and counts one more for each gain. R168: with a slew in
progress one of it is spent at each 64th millisecond; R169: with a trim, one in floor(65536 / |trim|) ms. What
becomes of a second withhold is left free (log 7). With RST high the stored deadlines that a count
reaches pass with it (R75, R162), each raising what it raises and no other evaluation being raised. It raises a tick, an
epoch boundary and the schedule point as each count reaches them (R86, R166, R172), the sample of its 250th
millisecond (R19), a level
held for 10 ms (R26; log 16: the filter of a line out of service stands at 0), the end of the setup window
(R177), the running out of a holdoff and the end of a BUSY line's wait (R122, R125; log 17: counted in
milliseconds), and moves on the counters of these; SSEL found high is seen and releases SDOUT (R178; log 10: in
the millisecond that finds it so). While RST is low everything but common time with its corrections stands
still. What the millisecond raises is taken after it, with common time as all its counts have left it (log 42).
The clauses that name log 7, 8, 10, 16, 17 and 42 are the model's choice; log 8 is that of RST. -/
def Obligations.IdleCountsOne : Prop :=
  ∀ s : State, s.pending = [] → s.raised = [] → s.dueDeadline = none →
    ∃ t, step s = .next t ∧ t.tables = s.tables ∧ t.store = s.store ∧
      t.nq = s.nq ∧ t.gdu = s.gdu ∧ t.zev = s.zev ∧
      t.prt = { s.prt.afterMs t.prt.withheld with roster := t.prt.roster } ∧
      (s.prt.owes ≤ 1 → t.prt.withheld = 0) ∧
      (2 ≤ s.prt.owes → t.prt.withheld = 0 ∨ t.prt.withheld = s.prt.owes - 1) ∧
      (s.prt.slew = 0 → s.prt.trim = 0 →
        (s.prt.withheld = 0 → t.prt = { s.prt with time := s.prt.time + 1, roster := t.prt.roster }) ∧
        (s.prt.withheld = 1 → t.prt = { s.prt with withheld := 0 })) ∧
      (s.pins.rstLow = false → MillisecondPasses s.prt.counts s t ∧
        CountsPassed s.prt.counts s t (t.raised.filter fun e => decide (e = .evaluation))) ∧
      (s.pins.rstLow = true → t = { s with prt := s.prt.afterMs t.prt.withheld })

/-! ### Resets and station states -/

/-- R176: what Station Control holds after POWER_ON; R178: a setup transaction waits until SSEL has been
seen high. -/
def Obligations.PowerOnControl : Prop :=
  ∀ (sn : BitVec 5) (suppr ack : Bool) (s : State),
    ∃ t, exec (.powerOn sn suppr ack) s = .next t ∧
      t.scs.own = sn.toNat + 1 ∧ t.scs.station = .window ∧ t.scs.windowTimer = some 0 ∧
      t.store = s.store ∧
      (s.store.valid = true → t.tables = s.store.pages ∧ t.scs.checksum = s.store.checksum) ∧
      (s.store.valid = false → (∀ a, t.tables.read a = 0) ∧ t.scs.checksum = 0) ∧
      (∀ f, t.scs.faults.get f = false) ∧ t.scs.healthArm = true ∧ t.scs.quietEpoch = true ∧
      (∀ a, t.scs.buffer.read a = 0) ∧ t.scs.tableSel = 0 ∧ t.scs.pageSel = 0 ∧
      t.scs.entryPtr = 0 ∧ t.scs.byteOff = 0 ∧ t.scs.view = .nothing ∧ t.scs.viewOff = 0 ∧
      t.scs.expected = 0 ∧ t.scs.busy = .clear ∧ t.scs.result = .nothing ∧
      t.scs.setupError = .noError ∧ t.scs.errTable = 0 ∧ t.scs.errEntry = 0 ∧ t.scs.joining = 0 ∧
      t.scs.sselSeen = s.pins.sselHigh

/-- R38, R57, R83, R121, R142, R157, R159, R174: the other blocks after POWER_ON. -/
def Obligations.PowerOnBlocks : Prop :=
  ∀ (sn : BitVec 5) (suppr ack : Bool) (s : State),
    ∃ t, exec (.powerOn sn suppr ack) s = .next t ∧ BlocksCleared t.tables (sn.toNat + 1) t ∧
      t.sfe.anemoWindow = [] ∧ t.sfe.warming = 0 ∧ t.sfe.g3 = 0 ∧ t.sfe.s60 = none ∧
      t.sfe.candidate = none ∧ t.sfe.run = 0 ∧ t.sfe.dustWindow = [] ∧
      t.sfe.dustIndex = some 0 ∧ t.sfe.latch = false ∧ t.sfe.ackPending = false ∧
      t.sfe.supprLevel = suppr ∧ t.sfe.ackLevel = ack ∧ t.sfe.supprFilter = 0 ∧
      t.sfe.ackFilter = 0 ∧ t.sfe.lastAnemo = 0 ∧ t.sfe.lastDust = 0 ∧ t.sfe.lampLow = 0 ∧
      t.sfe.dustLamp = false ∧ t.sfe.silentRun = 0 ∧ t.sfe.anemoSilent = false ∧
      t.sfe.vaneRecord = [] ∧ t.sfe.vaneErratic = false ∧ (∀ c, t.sfe.inService c = true) ∧
      t.gdu.mode = .notReady ∧ t.gdu.nextSeq = 0 ∧
      t.qlc.busy = true ∧ t.qlc.quiet = 0 ∧ t.qlc.idleIn = 100 ∧ t.qlc.holdoff = none ∧
      t.qlc.inFlight = none ∧
      t.qlc.qde = false ∧ t.qlc.seqReg.toNat = (sn.toNat + 1) * 2039 ∧ t.qlc.drawn = 0 ∧
      t.qlc.rotation = 0 ∧ t.qlc.rx = none ∧ t.qlc.rejectCause = 0 ∧ t.qlc.rejectSender = 0 ∧
      t.qlc.rejectKind = 0 ∧
      t.prt.time = 0 ∧ t.prt.trim = 0 ∧ t.prt.trimPhase = 0 ∧ t.prt.lock = .free ∧
      t.prt.lockCount = 0 ∧ t.prt.lastCorr = none ∧ t.prt.slew = 0

/-- R57, R142, R174, R176: LINE_RESET leaves what POWER_ON leaves, but keeps the next sequence, the
last-reject record, common time with the trim, and the fault flags. -/
def Obligations.LineResetKeeps : Prop :=
  ∀ (sn : BitVec 5) (suppr ack : Bool) (s : State),
    ∃ t u, exec (.lineReset sn suppr ack) s = .next t ∧ exec (.powerOn sn suppr ack) s = .next u ∧
      t = { u with
        gdu := { u.gdu with nextSeq := s.gdu.nextSeq }
        qlc := { u.qlc with
          rejectCause := s.qlc.rejectCause
          rejectSender := s.qlc.rejectSender
          rejectKind := s.qlc.rejectKind }
        prt := { u.prt with
          time := s.prt.time
          trim := s.prt.trim
          withheld := s.prt.withheld }
        scs := { u.scs with faults := s.scs.faults } }

/-- R176, R190: RST_ASSERT releases QDE, darkens every output pair and asserts TROUBLE, and changes
nothing else; while RST is held low no sample, frame, setup transaction or other event is taken (log 8,
log 10: the commands left out). -/
def Obligations.HeldTakesNothing : Prop :=
  (∀ s : State, ∃ t, exec .rstAssert s = .next t ∧ t.qlc.qde = false ∧
    (∀ pair, t.beacon pair = false ∧ t.sounder pair = false) ∧ t.trouble = true ∧
    t = { s with pins := { s.pins with rstLow := true }, qlc := { s.qlc with qde := false } }) ∧
  ∀ (c : Instr) (s : State), s.pins.rstLow = true → actsWhileHeld c = false →
    ∃ r, exec c s = .next { s with raised := r }

/-- R177: HOLD, taken in WINDOW, moves the station to SETUP, and the expiry of the window moves it to
JOINING with a valid store and the own entry present, else to SETUP with OWN_ABSENT or STORE_INVALID;
in another state nothing expires. -/
def Obligations.WindowEnds : Prop :=
  ∀ s : State, s.pins.rstLow = false →
    (s.portOpen = true → s.scs.station = .window → s.scs.busy = .clear →
      exec .hold s = .next { s with scs := { s.scs with
        station := .setup, windowTimer := none, result := .done } }) ∧
    (s.scs.station = .window → s.store.valid = true → stationPresent s.tables s.scs.own = true →
      ∃ t, exec .windowExpiry s = .next t ∧ JoiningEntered s t ∧ t.scs.windowTimer = none ∧
        t.scs.setupError = s.scs.setupError ∧ t.sfe = s.sfe ∧ t.gdu = s.gdu ∧ t.qlc = s.qlc) ∧
    (s.scs.station = .window → s.store.valid = true → stationPresent s.tables s.scs.own = false →
      ∃ r, exec .windowExpiry s = .next { s with
        scs := { s.scs with
          station := .setup, windowTimer := none, setupError := .ownAbsent,
          errTable := 1, errEntry := s.scs.own - 1 }
        raised := r }) ∧
    (s.scs.station = .window → s.store.valid = false →
      ∃ r, exec .windowExpiry s = .next { s with
        scs := { s.scs with
          station := .setup, windowTimer := none, setupError := .storeInvalid,
          errTable := 0, errEntry := 0 }
        raised := r }) ∧
    (s.scs.station ≠ .window → ∃ r, exec .windowExpiry s = .next { s with raised := r })

/-- R179: a command that the station state does not accept is answered REFUSED_STATE; while the busy mark
is set every command is answered BUSY; a code that names no command is answered REFUSED_ARGUMENT. In
each case nothing else changes. -/
def Obligations.CommandsTurnedAway : Prop :=
  ∀ s : State, s.portOpen = true →
    (∀ (c : Instr) (accepted : List StationState),
      (c, accepted) ∈
        [(Instr.hold, [StationState.window]), (.clearBuffer, [.setup]), (.commitPage, [.setup]),
          (.start, [.setup]), (.restart, [.joining, .operating]),
          (.clearFaults, [.window, .setup, .joining, .operating])] →
      s.scs.busy = .clear → s.scs.station ∉ accepted →
      exec c s = .next { s with scs := { s.scs with result := .refusedState } }) ∧
    (∀ c, c ∈ [Instr.hold, .clearBuffer, .commitPage, .start, .restart, .clearFaults, .channelOut,
        .channelIn] → s.scs.busy ≠ .clear →
      exec c s = .next { s with scs := { s.scs with result := .busy } }) ∧
    (∀ code : Byte, namesCommand code = false →
      exec (.unknownCommand code) s =
        .next { s with scs := { s.scs with
          result := if s.scs.busy = .clear then .refusedArgument else .busy } })

/-! ### Loading the tables -/

/-- R180: a write to TABLE SELECT that names an existing page selects it, loads the buffer from it (of
table 0 position 0, the others zero) and zeroes pointer and offset; another write has no effect. -/
def Obligations.TableSelectLoads : Prop :=
  ∀ (data : Byte) (s : State), s.portOpen = true → s.scs.busy = .clear →
    (data.toNat % 16 < tablePages (data.toNat / 16) →
      ∃ t, exec (.tableSelectWrite data) s = .next t ∧
        (∀ k, t.scs.buffer.read k =
          if k < (if data.toNat / 16 = 0 then 12 else pageLen (data.toNat / 16)) then
            s.tables.read (pageAddr (data.toNat / 16) (data.toNat % 16) + k)
          else 0) ∧
        t = { s with scs := { s.scs with
          tableSel := data.toNat / 16, pageSel := data.toNat % 16, buffer := t.scs.buffer,
          entryPtr := 0, byteOff := 0 } }) ∧
    (¬data.toNat % 16 < tablePages (data.toNat / 16) → exec (.tableSelectWrite data) s = .next s)

/-- R180: CLEAR BUFFER zeroes the buffer, pointer and offset; a write to ENTRY POINTER sets the pointer,
at most 15, and zeroes the offset; a write to ENTRY DATA in SETUP stores the byte at pointer and offset
and advances them, in another state it has no effect. -/
def Obligations.BufferWritten : Prop :=
  ∀ (data : Byte) (s : State), s.portOpen = true → s.scs.busy = .clear →
    s.scs.buffer.wf = true → s.scs.entryPtr ≤ 15 →
    (s.scs.station = .setup →
      ∃ t, exec .clearBuffer s = .next t ∧ (∀ a, t.scs.buffer.read a = 0) ∧
        t = { s with scs := { s.scs with
          buffer := t.scs.buffer, entryPtr := 0, byteOff := 0, result := .done } }) ∧
    exec (.entryPointerWrite data) s =
      .next { s with scs := { s.scs with
        entryPtr := if data.toNat < 15 then data.toNat else 15, byteOff := 0 } } ∧
    (s.scs.station = .setup →
      ∃ t, exec (.entryDataWrite data) s = .next t ∧
        t.scs.buffer.read (s.scs.entryPtr * entryLen s.scs.tableSel + s.scs.byteOff) = data ∧
        (∀ a, a ≠ s.scs.entryPtr * entryLen s.scs.tableSel + s.scs.byteOff →
          t.scs.buffer.read a = s.scs.buffer.read a) ∧
        t = { s with scs := { s.scs with
          buffer := t.scs.buffer,
          entryPtr := (advancedEntry s.scs).1, byteOff := (advancedEntry s.scs).2 } }) ∧
    (s.scs.station ≠ .setup → exec (.entryDataWrite data) s = .next s)

/-- R180: a read of ENTRY DATA returns the buffer's byte and advances pointer and offset; R178: during
PROGRAMMING it returns 0 (log 28: and advances nothing). -/
def Obligations.EntryDataRead : Prop :=
  ∀ s : State, s.portOpen = true → s.scs.entryPtr ≤ 15 →
    (s.scs.busy ≠ .programming →
      exec .entryDataRead s = .next { s with scs := { s.scs with
        sdout := some (s.scs.buffer.read (s.scs.entryPtr * entryLen s.scs.tableSel + s.scs.byteOff)),
        entryPtr := (advancedEntry s.scs).1, byteOff := (advancedEntry s.scs).2 } }) ∧
    (s.scs.busy = .programming →
      exec .entryDataRead s = .next { s with scs := { s.scs with sdout := some 0 } })

/-- R181: COMMIT PAGE sets the busy mark to COMMIT and begins the copy (log 19: COMMIT_COMPLETE is
raised). At COMMIT_COMPLETE every byte of the selected page reads as the buffer holds it (of table 0 the
bytes of position 0), every other byte as before; the busy mark becomes none, the result DONE. -/
def Obligations.CommitCopies : Prop :=
  ∀ s : State, s.pins.rstLow = false → s.tables.wf = true →
    (s.portOpen = true → s.scs.busy = .clear → s.scs.station = .setup →
      exec .commitPage s = .next { s with
        scs := { s.scs with busy := .commit }, raised := s.raised ++ [.commitComplete] }) ∧
    (s.scs.busy = .commit →
      ∃ t, exec .commitComplete s = .next t ∧
        (∀ k, k < (if s.scs.tableSel = 0 then 12 else pageLen s.scs.tableSel) →
          t.tables.read (pageAddr s.scs.tableSel s.scs.pageSel + k) = s.scs.buffer.read k) ∧
        (∀ a, (a < pageAddr s.scs.tableSel s.scs.pageSel ∨
            pageAddr s.scs.tableSel s.scs.pageSel +
              (if s.scs.tableSel = 0 then 12 else pageLen s.scs.tableSel) ≤ a) →
          t.tables.read a = s.tables.read a) ∧
        t = { s with
          tables := t.tables, raised := t.raised,
          scs := { s.scs with busy := .clear, result := .done } }) ∧
    (s.scs.busy ≠ .commit → ∃ r, exec .commitComplete s = .next { s with raised := r })

/-- R182: the writes to EXPECTED CHECKSUM H and L set the high and the low byte; R178: not during
PROGRAMMING. -/
def Obligations.ExpectedChecksumWritten : Prop :=
  ∀ (data : Byte) (s : State), s.portOpen = true →
    (s.scs.busy ≠ .programming →
      ∃ t u, exec (.expectedChecksumH data) s = .next t ∧ exec (.expectedChecksumL data) s = .next u ∧
        t.scs.expected.toNat = data.toNat * 256 + s.scs.expected.toNat % 256 ∧
        u.scs.expected.toNat = s.scs.expected.toNat / 256 * 256 + data.toNat ∧
        t = { s with scs := { s.scs with expected := t.scs.expected } } ∧
        u = { s with scs := { s.scs with expected := u.scs.expected } }) ∧
    (s.scs.busy = .programming →
      exec (.expectedChecksumH data) s = .next s ∧ exec (.expectedChecksumL data) s = .next s)

/-- R178: a write to a read-only index or to a number that names no index has no effect, nor has one
that the busy mark bars; where no transaction is taken, with RST low or SSEL not yet seen high since the
reset, no row of the port has one. The rise of SSEL releases SDOUT and is seen; nothing else changes
(log 10). R195: the two bytes of a transaction spell the row whose effect they have, bit 7 of the index byte
choosing read or write; a read that spells no row changes no state. -/
def Obligations.WritesIgnored : Prop :=
  ∀ (index : BitVec 7) (data : Byte) (s : State),
    (index.toNat ∉ [3, 5, 6, 7, 8, 9, 16] → exec (.registerWriteIgnored index data) s = .next s) ∧
    (s.scs.busy = .programming → index.toNat ≠ 3 →
      exec (.registerWriteIgnored index data) s = .next s) ∧
    (s.scs.busy = .commit → index.toNat ∈ [5, 6, 7] →
      exec (.registerWriteIgnored index data) s = .next s) ∧
    (s.portOpen = false → ∀ c,
      c ∈ [Instr.hold, .clearBuffer, .commitPage, .start, .restart, .clearFaults, .channelOut, .channelIn,
        .unknownCommand data, .tableSelectWrite data, .entryPointerWrite data, .entryDataWrite data,
        .entryDataRead, .expectedChecksumH data, .expectedChecksumL data, .viewSelect data, .viewData,
        .registerWriteIgnored index data] → exec c s = .next s) ∧
    exec .transactionAbandon s = .next { s with
      pins := { s.pins with sselHigh := true }
      scs := { s.scs with sdout := none, sselSeen := true } } ∧
    (s.pins.sselHigh = true → s.sdoutLine = none) ∧
    ∀ first : Byte,
      (∀ c, decodeTransaction first data = some c →
        exec c s = .next (s.transaction first data).1) ∧
      (decodeTransaction first data = none → (s.transaction first data).1 = s) ∧
      (128 ≤ first.toNat → (s.transaction first data).2 = s.portRead (first.toNat - 128)) ∧
      (first.toNat < 128 → (s.transaction first data).2 = none ∧
        (s.transaction first data).1 = s.portWrite first.toNat data)

/-! ### START, the store, restart, faults, channels -/

/-- R182: START in SETUP: a failing check of validation is recorded, a difference of the checksum is
CHECKSUM, both with the result DONE; on agreement the station enters PROGRAMMING, the header's valid
mark is cleared (R183) and page 0 is begun. -/
def Obligations.StartDecides : Prop :=
  ∀ s : State, s.portOpen = true → s.scs.busy = .clear → s.scs.station = .setup →
    (∀ f, validate s.tables s.scs.own = some f →
      exec .start s = .next { s with scs := { s.scs with
        setupError := f.code, errTable := f.table, errEntry := f.entry, result := .done } }) ∧
    (validate s.tables s.scs.own = none → tableChecksum s.tables ≠ s.scs.expected →
      exec .start s = .next { s with scs := { s.scs with
        setupError := .checksum, errTable := 0, errEntry := 0, result := .done } }) ∧
    (validate s.tables s.scs.own = none → tableChecksum s.tables = s.scs.expected →
      exec .start s = .next { s with
        store := { s.store with valid := false }
        scs := { s.scs with
          setupError := .noError, errTable := 0, errEntry := 0
          station := .programming, busy := .programming
          prog := some { stage := .page 0, retried := false, value := s.scs.expected } } })

/-- R11–R17: a site record out of range fails at table 0, entry 0 with RANGE, then the first present station
entry out of range at its position with RANGE; an absent own entry alone fails with OWN_ABSENT. In tables
that pass validation the site record, every present station, lane in force and present zone in force is in
range; lanes join two different present stations by a mask that is not empty; a zone's owner is present, its
leads in order, and a COMPUTED or COMBINED zone has approach entries of present stations; the own entry is
present, every owner has at most four zones, on distinct output pairs, and every mirroring zone in force
mirrors a present zone of another owner below the zone count, its chain of mirror sources reaching a
COMPUTED zone within three links. Where site record and stations pass, the first lane that fails is reported at
its position, with RANGE or else LANE_ENDPOINT; where the lanes pass too, the first present zone in force that
fails, with the first code of its checks, OWNER_LOAD before OUTPUT_CLASH. Tables whose every check passes
validate with none. -/
def Obligations.ValidTables : Prop :=
  ∀ (m : Memory) (own : Nat),
    ((site m).inRange = false →
      validate m own = some { code := .range, table := 0, entry := 0 }) ∧
    ((site m).inRange = true → ∀ p, p < 32 →
      (∀ q, q < p → stationPresent m (q + 1) = true → (stationRec m (q + 1)).inRange = true) →
      stationPresent m (p + 1) = true → (stationRec m (p + 1)).inRange = false →
      validate m own = some { code := .range, table := 1, entry := p }) ∧
    (∀ n, validate m n = none → stationPresent m own = false →
      validate m own = some { code := .ownAbsent, table := 1, entry := own - 1 }) ∧
    (SiteGood m → ∀ i, i < (site m).laneCount → (∀ j, j < i → LaneGood m j) →
      ((laneRec m i).inRange = false →
        validate m own = some { code := .range, table := 2, entry := i }) ∧
      ((laneRec m i).inRange = true → ¬LaneGood m i →
        validate m own = some { code := .laneEndpoint, table := 2, entry := i })) ∧
    (SiteGood m → (∀ j, j < (site m).laneCount → LaneGood m j) →
      ∀ i, i < (site m).zoneCount → (zoneRec m i).present = true →
        (∀ j, j < i → (zoneRec m j).present = true → ZoneGood m j) →
        ∀ before fails code after, zoneFaults m i = before ++ (fails, code) :: after →
          (∀ x ∈ before, ¬x.1) → fails →
          validate m own = some { code := code, table := 3, entry := i }) ∧
    (SiteGood m → (∀ i, i < (site m).laneCount → LaneGood m i) →
      (∀ i, i < (site m).zoneCount → (zoneRec m i).present = true → ZoneGood m i) →
      stationPresent m own = true → validate m own = none) ∧
    (validate m own = none → (site m).inRange = true ∧ stationPresent m own = true ∧
      (∀ n, stationPresent m n = true → (stationRec m n).inRange = true) ∧
      (∀ i, i < (site m).laneCount → (laneRec m i).inRange = true ∧
        stationPresent m (laneRec m i).source = true ∧ stationPresent m (laneRec m i).target = true ∧
        (laneRec m i).source ≠ (laneRec m i).target ∧ (laneRec m i).mask ≠ 0) ∧
      (∀ i, i < (site m).zoneCount → (zoneRec m i).present = true →
        (zoneRec m i).inRange = true ∧ stationPresent m (zoneRec m i).owner = true ∧
        (zoneRec m i).alarmLead ≤ (zoneRec m i).warnLead ∧
        (zoneRec m i).warnLead ≤ (zoneRec m i).watchLead ∧
        ((zoneRec m i).kind.computes = true → 1 ≤ (zoneRec m i).approachCount ∧
          ∀ a ∈ approaches m i, a.inRange = true ∧ stationPresent m a.source = true)) ∧
      (∀ owner, (ownedZones m owner).length ≤ 4 ∧
        ((ownedZones m owner).map fun i => (zoneRec m i).pair).Nodup) ∧
      ∀ i, i < (site m).zoneCount → (zoneRec m i).present = true →
        (zoneRec m i).kind.mirrors = true →
        (zoneRec m i).source < (site m).zoneCount ∧
        (zoneRec m (zoneRec m i).source).present = true ∧
        (zoneRec m (zoneRec m i).source).owner ≠ (zoneRec m i).owner ∧
        ((zoneRec m (zoneRec m i).source).kind = .computed ∨
          (zoneRec m (zoneRec m (zoneRec m i).source).source).kind = .computed ∨
          (zoneRec m (zoneRec m (zoneRec m (zoneRec m i).source).source).source).kind = .computed))

/-- R183 step 2: a page read back as the working tables hold it lets programming go on to the next page
or the header; a first difference repeats the page; a second fails programming: SETUP, STORE_WRITE at
the page, STORE_FAULT, DONE. In each case the stored page holds what was read back, of the page's length,
and no other byte of the store changes: that clause is the model's choice (log 18). -/
def Obligations.StorePageDecides : Prop :=
  ∀ (readBack : List Byte) (s : State) (p : Programming) (k table page : Nat), s.pins.rstLow = false →
    s.scs.station = .programming → s.scs.prog = some p → p.stage = .page k → k < 18 →
    pageOrder[k]? = some (table, page) →
    let stored : Store := { s.store with
      pages := s.store.pages.writeBlock (pageAddr table page) (readBack.take (pageLen table)) }
    (readBack = s.tables.readBlock (pageAddr table page) (pageLen table) →
      exec (.storePageDone readBack) s = .next { s with
        store := stored
        scs := { s.scs with prog := some { p with
          stage := if k = 17 then .header else .page (k + 1), retried := false } } }) ∧
    (readBack ≠ s.tables.readBlock (pageAddr table page) (pageLen table) → p.retried = false →
      exec (.storePageDone readBack) s = .next { s with
        store := stored
        scs := { s.scs with prog := some { p with retried := true } } }) ∧
    (readBack ≠ s.tables.readBlock (pageAddr table page) (pageLen table) → p.retried = true →
      ∃ t, exec (.storePageDone readBack) s = .next t ∧
        t = { s with
          store := stored, nq := t.nq, qlc := t.qlc, raised := t.raised
          scs := { s.scs with
            prog := none, station := .setup, busy := .clear, result := .done
            setupError := .storeWrite, errTable := table, errEntry := 16 * page
            faults := s.scs.faults.set .storeFault
            healthArm := s.scs.healthArm && s.scs.faults.storeFault, quietEpoch := false } })

/-- R183 steps 3 and 4: a header read back as written makes the store valid with the checksum, which
the station then holds, and JOINING is entered; a second difference fails at table 4, entry 0. On a
difference the header keeps its cleared mark and its old checksum (`t.store = s.store`): that clause is the
model's choice (log 18). -/
def Obligations.StoreHeaderDecides : Prop :=
  ∀ (valid : Bool) (checksum : Word16) (s : State) (p : Programming), s.pins.rstLow = false →
    s.scs.station = .programming → s.scs.prog = some p → p.stage = .header →
    ∃ t, exec (.storeHeaderDone valid checksum) s = .next t ∧ t.tables = s.tables ∧
      (valid = true ∧ checksum = p.value →
        JoiningEntered s t ∧ t.store.valid = true ∧ t.store.checksum = p.value ∧
        t.store.pages = s.store.pages ∧ t.scs.checksum = p.value ∧ t.scs.busy = .clear ∧
        t.scs.result = .done ∧ t.scs.prog = none) ∧
      (¬(valid = true ∧ checksum = p.value) → t.store = s.store ∧
        t.scs.checksum = s.scs.checksum ∧
        (p.retried = false → t.scs.prog = some { p with retried := true } ∧
          t.scs.station = .programming) ∧
        (p.retried = true → t.scs.prog = none ∧ t.scs.station = .setup ∧ t.scs.busy = .clear ∧
          t.scs.result = .done ∧ t.scs.setupError = .storeWrite ∧ t.scs.errTable = 4 ∧
          t.scs.errEntry = 0 ∧ t.scs.faults.storeFault = true))

/-- R185 with R38, R57, R142, R174: RESTART in JOINING or OPERATING: JOINING entered with the blocks
cleared; windows, candidate, runs and records of SFE restarted, recognised levels kept with their filters but for a
line that was out of service, and channels in service (log 15: the sample period begins anew, its counts at 0);
episode discarded; holdoff stopped and frame abandoned; line view, register, rotation, reject record, store and
checksum kept. Two parts of what it says of the line are the model's choice: the abandoned frame is not read on
(log 12: `ownRead := none`), and the end of driving begins the wait for IDLE again (log 17: `idleIn := 100`). -/
def Obligations.RestartRejoins : Prop :=
  ∀ s : State, s.portOpen = true → s.scs.busy = .clear →
    (s.scs.station = .joining ∨ s.scs.station = .operating) →
    ∃ t, exec .restart s = .next t ∧ JoiningEntered s t ∧ t.scs.result = .done ∧
      t.sfe.anemoWindow = [] ∧ t.sfe.warming = 0 ∧ t.sfe.g3 = 0 ∧ t.sfe.s60 = none ∧
      t.sfe.dustWindow = [] ∧ t.sfe.dustIndex = some 0 ∧ t.sfe.lastAnemo = 0 ∧ t.sfe.lastDust = 0 ∧
      t.sfe.sectorTaken = false ∧ t.sfe.candidate = none ∧ t.sfe.run = 0 ∧
      t.sfe.vanePrev = none ∧ t.sfe.vaneRecord = [] ∧ t.sfe.vaneErratic = false ∧
      t.sfe.lampLow = 0 ∧ t.sfe.dustLamp = false ∧ t.sfe.silentRun = 0 ∧ t.sfe.anemoSilent = false ∧
      t.sfe.anemoCount = 0 ∧ t.sfe.dustCount = 0 ∧ t.sfe.phase = 0 ∧
      t.sfe.supprFilter = (if s.sfe.supprIn then s.sfe.supprFilter else 0) ∧
      t.sfe.ackFilter = (if s.sfe.ackIn then s.sfe.ackFilter else 0) ∧
      t.sfe.latch = false ∧ t.sfe.ackPending = false ∧ (∀ c, t.sfe.inService c = true) ∧
      t.sfe.supprLevel = (if s.sfe.supprIn then s.sfe.supprLevel else s.pins.suppr) ∧
      t.sfe.ackLevel = (if s.sfe.ackIn then s.sfe.ackLevel else s.pins.ack) ∧
      t.gdu.mode = .notReady ∧ t.gdu.nextSeq = s.gdu.nextSeq ∧
      t.qlc = { s.qlc with
        idleIn := if s.qlc.inFlight.isSome then 100 else s.qlc.idleIn
        holdoff := none, inFlight := none, qde := false, frame := [], ownRead := none } ∧
      t.store = s.store ∧ t.scs.checksum = s.scs.checksum ∧ t.scs.healthArm = s.scs.healthArm ∧
      t.prt.slew = s.prt.slew ∧ t.prt.trimPhase = s.prt.trimPhase

/-- R188: CLEAR FAULTS clears the event flags and each condition flag whose condition is not present;
the result is DONE; of the rest only the holdoff, its draw and the sequence register may change, with the
eligibility. R35–R37, R187, R189: at a sample the silent run and the record of large changes follow their
rules; a condition that changes from false to true sets its flag, no other, and marks the epoch not quiet; a
flag newly set while the health arm is set posts a PRESENCE of class 4 and clears the arm. -/
def Obligations.ClearFaultsClears : Prop :=
  (∀ s : State, s.portOpen = true → s.scs.busy = .clear → s.scs.station ≠ .programming →
    ∃ t, exec .clearFaults s = .next t ∧
      t = { s with
        scs := { s.scs with
          result := .done
          faults :=
            { anemoSilent := s.scs.faults.anemoSilent && decide (s.sfe.silentRun = 2400)
              vaneErratic := s.scs.faults.vaneErratic && decide (8 ≤ s.sfe.vaneRecord.countP id)
              dustLamp := s.scs.faults.dustLamp && decide (s.sfe.lampLow = 20)
              lineTrouble := false
              duplicateStation := false
              timeRail := s.scs.faults.timeRail && decide (s.prt.trim = 64 ∨ s.prt.trim = -64)
              storeFault := false } }
        qlc := { s.qlc with holdoff := t.qlc.holdoff, seqReg := t.qlc.seqReg, drawn := t.qlc.drawn }
        raised := t.raised }) ∧
  ∀ (vane : BitVec 4) (lamp : Bool) (s : State), s.pins.rstLow = false →
    ∃ t, exec (.sampleEvent vane lamp) s = .next t ∧
      let silent := s.sfe.silentRun ≠ 2400 ∧ t.sfe.silentRun = 2400
      let erratic := s.sfe.vaneRecord.countP id < 8 ∧ 8 ≤ t.sfe.vaneRecord.countP id
      let dark := s.sfe.lampLow ≠ 20 ∧ t.sfe.lampLow = 20
      (s.sfe.anemoIn = true → t.sfe.silentRun =
        match s.peerMedian with
        | some v => if s.sfe.anemoCount = 0 ∧ 40 ≤ v then min (s.sfe.silentRun + 1) 2400 else 0
        | none => 0) ∧
      (s.sfe.vaneIn = true → t.sfe.vaneRecord = newest 240 (s.sfe.vaneRecord ++
        [match s.sfe.vanePrev with
          | some x => decide (3 ≤ sectorDistance t.sfe.raw x)
          | none => false])) ∧
      (t.scs.faults.anemoSilent = true ↔ s.scs.faults.anemoSilent = true ∨ silent) ∧
      (t.scs.faults.vaneErratic = true ↔ s.scs.faults.vaneErratic = true ∨ erratic) ∧
      (t.scs.faults.dustLamp = true ↔ s.scs.faults.dustLamp = true ∨ dark) ∧
      t.scs.faults = { s.scs.faults with
        anemoSilent := t.scs.faults.anemoSilent
        vaneErratic := t.scs.faults.vaneErratic
        dustLamp := t.scs.faults.dustLamp } ∧
      (t.scs.quietEpoch = true ↔ s.scs.quietEpoch = true ∧ ¬silent ∧ ¬erratic ∧ ¬dark) ∧
      (t.scs.healthArm = true ↔ s.scs.healthArm = true ∧ t.scs.faults = s.scs.faults) ∧
      (s.scs.healthArm = true → t.scs.faults ≠ s.scs.faults → QueueInv s →
        s.entryOf .presence = none → s.nq.entries.length < 7 → PostedAnew s t .presence 4)

/-- R186, and of R31 and R33: CHANNEL OUT and CHANNEL IN act, in every station state, on the channel
that the last write to VIEW SELECT named, with the result DONE: it leaves or regains service and no other
channel does; an ANEMO that returns restarts its window and warming, a VANE its candidate and record.
With no channel named, as after power-on and line reset, both are answered REFUSED_ARGUMENT, during a
commit or PROGRAMMING both are answered BUSY, and nothing else changes. A line reset and a restart put
every channel back in service. -/
def Obligations.ChannelService : Prop :=
  (∀ s : State, s.portOpen = true → s.scs.busy ≠ .clear →
    exec .channelOut s = .next { s with scs := { s.scs with result := .busy } } ∧
    exec .channelIn s = .next { s with scs := { s.scs with result := .busy } }) ∧
  (∀ s : State, s.portOpen = true → s.scs.busy ≠ .programming → ∀ code : Byte,
    ∃ t, exec (.viewSelect code) s = .next t ∧
      ∀ (c : Channel) (k : Nat),
        (c, k) ∈ [(Channel.anemo, 0xC0), (.vane, 0xC1), (.dust, 0xC2), (.suppr, 0xC3), (.ack, 0xC4),
          (.lamp, 0xC5)] →
        (t.scs.view = .channel c ↔ code.toNat = k)) ∧
  (∀ (s : State) (sn : BitVec 5) (suppr ack : Bool),
    ∃ t u, exec (.powerOn sn suppr ack) s = .next t ∧ exec (.lineReset sn suppr ack) s = .next u ∧
      t.scs.view = .nothing ∧ u.scs.view = .nothing ∧ ∀ c, u.sfe.inService c = true) ∧
  (∀ s : State, s.portOpen = true → s.scs.busy = .clear →
    (s.scs.station = .joining ∨ s.scs.station = .operating) →
    ∃ t, exec .restart s = .next t ∧ ∀ c, t.sfe.inService c = true) ∧
  ∀ s : State, s.portOpen = true → s.scs.busy = .clear →
    (∀ c, s.scs.view = .channel c →
      ∃ t u, exec .channelOut s = .next t ∧ exec .channelIn s = .next u ∧
        t = { s with sfe := t.sfe, scs := { s.scs with result := .done } } ∧
        u = { s with sfe := u.sfe, raised := u.raised, scs := { s.scs with result := .done } } ∧
        t.sfe.inService c = false ∧ u.sfe.inService c = true ∧
        (∀ c', c' ≠ c → t.sfe.inService c' = s.sfe.inService c' ∧
          u.sfe.inService c' = s.sfe.inService c') ∧
        (s.sfe.inService c = true → u.sfe = s.sfe) ∧ (s.sfe.inService c = false → t.sfe = s.sfe) ∧
        t.sfe.anemoWindow = s.sfe.anemoWindow ∧ t.sfe.accepted = s.sfe.accepted ∧
        (c = .anemo → s.sfe.anemoIn = false → u.sfe.anemoWindow = [] ∧ u.sfe.warming = 0 ∧
          u.sfe.g3 = 0 ∧ u.sfe.s60 = none ∧ u.sfe.silentRun = 0) ∧
        (c = .vane → s.sfe.vaneIn = false → u.sfe.accepted = s.sfe.accepted ∧
          u.sfe.candidate = none ∧ u.sfe.run = 0 ∧ u.sfe.vaneRecord = [])) ∧
    ((∀ c, s.scs.view ≠ .channel c) →
      exec .channelOut s = .next { s with scs := { s.scs with result := .refusedArgument } } ∧
      exec .channelIn s = .next { s with scs := { s.scs with result := .refusedArgument } })

/-- R34: a discrete line that returns with a level other than the held one acts as the transition
would: SUPPR now active sets the latch, ACK moved in the configured direction sets the pending flag,
and LAMP high ends DUST_LAMP. -/
def Obligations.ChannelInCompares : Prop :=
  ∀ s : State, s.portOpen = true → s.scs.busy = .clear →
    ∃ t, exec .channelIn s = .next t ∧
      (s.scs.view = .channel .suppr → s.sfe.supprIn = false →
        t.sfe.supprLevel = s.pins.suppr ∧
        t.sfe.latch = (s.sfe.latch ||
          (decide (s.sfe.supprLevel ≠ s.ownRec.supprHigh) &&
            decide (s.pins.suppr = s.ownRec.supprHigh)))) ∧
      (s.scs.view = .channel .ack → s.sfe.ackIn = false →
        t.sfe.ackLevel = s.pins.ack ∧
        t.sfe.ackPending = (s.sfe.ackPending ||
          (decide (s.pins.ack ≠ s.sfe.ackLevel) &&
            decide (s.pins.ack = s.ownRec.ackRising)))) ∧
      (s.scs.view = .channel .lamp → s.sfe.lampIn = false →
        t.sfe.lampLow =
          if s.pins.lamp then 0 else if s.sfe.lampLow = 20 then 20 else 0)

/-! ### Views -/

/-- R191, R195, R196, R39, R82, R121, R173: VIEW SELECT takes the copy of a roster entry or the own time, of a
zone or of a track slot, names a channel, or selects nothing, by its code, and zeroes the offset; each view
has the bytes and the length of R196. VIEW DATA returns the byte of the selected view at the offset and
advances it; past the last byte it returns 0 and does not advance. During PROGRAMMING a write to VIEW SELECT
has no effect (R178) and a read of VIEW DATA returns 0 (log 28: and does not advance). R178, R191, R195: what
a read of an index returns, STATUS and FAULTS bit by bit (log 37: bits 7 and 6 of STATUS are 0); during
PROGRAMMING every index but STATUS and RESULT reads 0; where no transaction is taken nothing is read. -/
def Obligations.ViewRead : Prop :=
  (∀ (code : Byte) (s : State), s.portOpen = true →
    (s.scs.busy ≠ .programming →
      ∃ t, exec (.viewSelect code) s = .next t ∧
        t = { s with scs := { s.scs with view := t.scs.view, viewOff := 0 } } ∧
        (1 ≤ code.toNat → code.toNat ≤ 0x20 →
          (code.toNat = s.scs.own → t.scs.view = .copy (ownTimeView s.prt)) ∧
          (code.toNat ≠ s.scs.own → ∀ e, s.rosterOf code.toNat = some e →
            t.scs.view = .copy (rosterView e))) ∧
        (∀ i, code.toNat = 0x40 + i → i < 48 →
          (∀ z, s.zev.zones.find? (fun z => decide (z.zone = i)) = some z →
            t.scs.view = .copy (ownedView (zoneRec s.tables i).kindCode z)) ∧
          ((∀ z ∈ s.zev.zones, z.zone ≠ i) →
            (∀ r, s.receivedOf i = some r → t.scs.view = .copy (sourceView r)) ∧
            (s.receivedOf i = none → t.scs.view = .copy [0]))) ∧
        (∀ k, code.toNat = 0x80 + k → k < 16 →
          (s.tracks[k]? = some none → t.scs.view = .copy [0]) ∧
          (∀ tr, s.tracks[k]? = some (some tr) → t.scs.view = .copy (trackView tr))) ∧
        (∀ (c : Channel) (k : Nat),
          (c, k) ∈ [(Channel.anemo, 0xC0), (.vane, 0xC1), (.dust, 0xC2), (.suppr, 0xC3), (.ack, 0xC4),
            (.lamp, 0xC5)] →
          (t.scs.view = .channel c ↔ code.toNat = k)) ∧
        (code.toNat = 0 ∨ (0x20 < code.toNat ∧ code.toNat < 0x40) ∨
          (0x70 ≤ code.toNat ∧ code.toNat < 0x80) ∨ (0x90 ≤ code.toNat ∧ code.toNat < 0xC0) ∨
          0xC5 < code.toNat → t.scs.view = .nothing)) ∧
    (s.scs.busy = .programming → exec (.viewSelect code) s = .next s ∧
      exec .viewData s = .next { s with scs := { s.scs with sdout := some 0 } }) ∧
    (s.scs.busy ≠ .programming →
      (∀ b, s.viewBytes[s.scs.viewOff]? = some b →
        exec .viewData s = .next { s with scs := { s.scs with
          viewOff := s.scs.viewOff + 1, sdout := some b } }) ∧
      (s.viewBytes.length ≤ s.scs.viewOff →
        exec .viewData s = .next { s with scs := { s.scs with sdout := some 0 } }))) ∧
  (∀ s : State,
    (s.scs.view = .nothing → s.viewBytes = []) ∧ (∀ l, s.scs.view = .copy l → s.viewBytes = l) ∧
    (∀ c, s.scs.view = .channel c → s.viewBytes = s.channelView c) ∧
    (s.channelView .anemo).length = 10 ∧ (s.channelView .vane).length = 7 ∧
    (s.channelView .dust).length = 4 ∧ (s.channelView .suppr).length = 4 ∧
    (s.channelView .ack).length = 3 ∧ (s.channelView .lamp).length = 4) ∧
  (∀ (p : Prt) (kind : Nat) (z : ZoneState) (r : Received) (t : Track) (e : RosterEntry),
    (ownTimeView p).length = 14 ∧ (ownedView kind z).length = 18 ∧ (sourceView r).length = 8 ∧
    (trackView t).length = 27 + 11 * t.sightings.length ∧
    (rosterView e).length = 19 + 2 * (match e.announced with | some a => a.pairs.length | none => 0)) ∧
  ∀ s : State,
    (s.portOpen = false → ∀ i, s.portRead i = none) ∧
    (s.portOpen = true →
      (∃ b, s.portRead 0x01 = some b ∧ b.toNat = s.scs.station.code +
        (if s.scs.busy = .clear then 0 else 8) + (if s.scs.station = .window then 16 else 0) +
        (if s.scs.setupError = .noError then 0 else 32)) ∧
      s.portRead 0x04 = some (if s.scs.busy = .clear then s.scs.result.code else 3) ∧
      (s.scs.busy = .programming → ∀ i, i ≠ 0x01 → i ≠ 0x04 → s.portRead i = some 0) ∧
      (s.scs.busy ≠ .programming →
        (∃ b, s.portRead 0x02 = some b ∧ b.toNat =
          (if s.scs.faults.anemoSilent then 1 else 0) + (if s.scs.faults.vaneErratic then 2 else 0) +
          (if s.scs.faults.dustLamp then 4 else 0) + (if s.scs.faults.lineTrouble then 8 else 0) +
          (if s.scs.faults.duplicateStation then 16 else 0) +
          (if s.scs.faults.timeRail then 32 else 0) + (if s.scs.faults.storeFault then 64 else 0)) ∧
        s.portRead 0x05 = some (byteOf (s.scs.tableSel * 16 + s.scs.pageSel)) ∧
        s.portRead 0x06 = some (byteOf s.scs.entryPtr) ∧
        s.portRead 0x07 = some (s.scs.buffer.read
          (s.scs.entryPtr * entryLen s.scs.tableSel + s.scs.byteOff)) ∧
        s.portRead 0x0A = some s.scs.setupError.code ∧ s.portRead 0x0B = some (byteOf s.scs.errTable) ∧
        s.portRead 0x0C = some (byteOf s.scs.errEntry) ∧
        s.portRead 0x0D = some (byteOf s.qlc.rejectCause) ∧
        s.portRead 0x0E = some s.qlc.rejectSender ∧ s.portRead 0x0F = some s.qlc.rejectKind ∧
        s.portRead 0x11 = some (s.viewBytes.getD s.scs.viewOff 0) ∧
        s.portRead 0x12 = some (byteOf s.scs.own) ∧
        ∀ i, i ∉ [1, 2, 4, 5, 6, 7, 0x0A, 0x0B, 0x0C, 0x0D, 0x0E, 0x0F, 0x11, 0x12] →
          s.portRead i = some 0))

/-! ### Sensors and the gust detector -/

/-- R20: a pulse is counted into the running period's count of its channel, which stops at 255, while
the channel is in service; else it changes nothing. -/
def Obligations.PulseCounted : Prop :=
  ∀ s : State, s.pins.rstLow = false →
    exec (.pulseEdge .anemo) s = .next { s with sfe := { s.sfe with
      anemoCount := if s.sfe.anemoIn ∧ s.sfe.anemoCount < 255 then s.sfe.anemoCount + 1
        else if s.sfe.anemoIn then 255 else s.sfe.anemoCount } } ∧
    exec (.pulseEdge .dust) s = .next { s with sfe := { s.sfe with
      dustCount := if s.sfe.dustIn ∧ s.sfe.dustCount < 255 then s.sfe.dustCount + 1
        else if s.sfe.dustIn then 255 else s.sfe.dustCount } }

/-- R20–R22: at a sample with ANEMO in service the closed count enters the window, of which the newest
240 stay; G3, the warming count and S60 follow by their formulas, and the next count starts at 0. -/
def Obligations.SampleWind : Prop :=
  ∀ (vane : BitVec 4) (lamp : Bool) (s : State), s.pins.rstLow = false → s.sfe.anemoIn = true →
    ∃ t, exec (.sampleEvent vane lamp) s = .next t ∧
      t.sfe.anemoWindow = newest 240 (s.sfe.anemoWindow ++ [s.sfe.anemoCount]) ∧
      t.sfe.lastAnemo = s.sfe.anemoCount ∧ t.sfe.anemoCount = 0 ∧
      t.sfe.warming = (if s.sfe.warming < 240 then s.sfe.warming + 1 else 240) ∧
      t.sfe.g3 = min ((newest 12 t.sfe.anemoWindow).sum *
        (stationRec s.tables s.scs.own).speedFactor / 3) 600 ∧
      t.sfe.s60 = (if t.sfe.warming = 240 then
        some (min (t.sfe.anemoWindow.sum * (stationRec s.tables s.scs.own).speedFactor / 60) 600)
        else none)

/-- R23–R25, R30: at a sample the vane in service is decoded, a sector accepted at the fourth reading
of it, the dust index computed and the lamp-low run counted. R27, R28, R32: a sample at which the recognised, or
held, SUPPR level is the active one sets the latch, which an onset at that sample then clears. R32: a channel out
of service keeps its held values, and with ANEMO out the detector goes to NOT_READY. What no sample
touches stays. -/
def Obligations.SampleVaneDust : Prop :=
  ∀ (vane : BitVec 4) (lamp : Bool) (s : State), s.pins.rstLow = false →
    ∃ t, exec (.sampleEvent vane lamp) s = .next t ∧
      (s.sfe.vaneIn = true → s.sfe.sectorTaken = true →
        t.sfe.raw = grayDecode vane ∧
        (t.sfe.raw = s.sfe.accepted → t.sfe.run = 0 ∧ t.sfe.accepted = s.sfe.accepted ∧
          t.sfe.candidate = s.sfe.candidate) ∧
        (t.sfe.raw ≠ s.sfe.accepted → s.sfe.candidate = some t.sfe.raw → s.sfe.run = 3 →
          t.sfe.accepted = t.sfe.raw ∧ t.sfe.run = 0) ∧
        (t.sfe.raw ≠ s.sfe.accepted → s.sfe.candidate = some t.sfe.raw → s.sfe.run < 3 →
          t.sfe.accepted = s.sfe.accepted ∧ t.sfe.run = s.sfe.run + 1) ∧
        (t.sfe.raw ≠ s.sfe.accepted → s.sfe.candidate ≠ some t.sfe.raw →
          t.sfe.accepted = s.sfe.accepted ∧ t.sfe.candidate = some t.sfe.raw ∧ t.sfe.run = 1)) ∧
      (s.sfe.vaneIn = true → s.sfe.sectorTaken = false →
        t.sfe.accepted = grayDecode vane ∧ t.sfe.run = 0) ∧
      (s.sfe.dustIn = true →
        t.sfe.dustWindow = newest 4 (s.sfe.dustWindow ++ [s.sfe.dustCount]) ∧
        t.sfe.dustCount = 0 ∧
        t.sfe.dustNumber = min (t.sfe.dustWindow.sum *
          (stationRec s.tables s.scs.own).dustFactor / 16) 1023) ∧
      (s.sfe.lampIn = true → t.sfe.lampLow =
        if lamp then 0 else if s.sfe.lampLow < 20 then s.sfe.lampLow + 1 else 20) ∧
      t.sfe.dustIndex = (if t.sfe.lampLow = 20 then none else some t.sfe.dustNumber) ∧
      t.sfe.supprLevel = s.sfe.supprLevel ∧
      (¬(s.gdu.mode = .arming ∧ ∃ e, t.gdu.mode = .episode e) →
        t.sfe.latch = (s.sfe.latch || decide (s.sfe.supprLevel = s.ownRec.supprHigh))) ∧
      (s.gdu.mode = .arming → ∀ e, t.gdu.mode = .episode e → t.sfe.latch = false ∧
        e.w = (s.sfe.latch || decide (s.sfe.supprLevel = s.ownRec.supprHigh))) ∧
      t.tables = s.tables ∧ t.store = s.store ∧ t.prt = s.prt ∧ t.zev = s.zev ∧
      t.pins = { s.pins with vane := vane, lamp := lamp } ∧
      t.scs = { s.scs with
        faults := t.scs.faults, healthArm := t.scs.healthArm, quietEpoch := t.scs.quietEpoch } ∧
      (s.sfe.anemoIn = false → t.sfe.anemoWindow = s.sfe.anemoWindow ∧
        t.sfe.warming = s.sfe.warming ∧ t.sfe.g3 = s.sfe.g3 ∧ t.sfe.s60 = s.sfe.s60 ∧
        t.sfe.silentRun = s.sfe.silentRun ∧ t.gdu = { s.gdu with mode := .notReady }) ∧
      (s.sfe.vaneIn = false → t.sfe.raw = s.sfe.raw ∧ t.sfe.accepted = s.sfe.accepted ∧
        t.sfe.candidate = s.sfe.candidate ∧ t.sfe.run = s.sfe.run ∧
        t.sfe.vaneRecord = s.sfe.vaneRecord) ∧
      (s.sfe.dustIn = false → t.sfe.dustWindow = s.sfe.dustWindow ∧
        t.sfe.dustNumber = s.sfe.dustNumber) ∧
      (s.sfe.lampIn = false → t.sfe.lampLow = s.sfe.lampLow)

/-- R26, R27, R29: a recognised change of SUPPR sets the latch when it is into the active level; one of
ACK in the configured direction sets the pending flag, an event at ZEV; out of service neither acts. (log 41:
active level and edge are those of the working tables as they stand, also just after a commit of them.) -/
def Obligations.LinesRecognised : Prop :=
  ∀ (level : Bool) (s : State), s.pins.rstLow = false →
    (∃ r, exec (.supprTransition level) s = .next { s with
      pins := { s.pins with suppr := level }
      sfe := if s.sfe.supprIn = true ∧ level ≠ s.sfe.supprLevel then
          { s.sfe with
            supprLevel := level, supprFilter := 0
            latch := s.sfe.latch || decide (level = s.ownRec.supprHigh) }
        else s.sfe
      raised := r }) ∧
    (∃ t, exec (.ackTransition level) s = .next t ∧
      t = { s with pins := { s.pins with ack := level }, sfe := t.sfe, raised := t.raised } ∧
      (s.sfe.ackIn = true → level ≠ s.sfe.ackLevel → t.sfe.ackLevel = level ∧
        t.sfe.ackPending = (s.sfe.ackPending ||
          decide (level = s.ownRec.ackRising)) ∧
        (t.sfe.ackPending = true → s.sfe.ackPending = false → .ackEvaluation ∈ t.raised)) ∧
      (s.sfe.ackIn = false ∨ level = s.sfe.ackLevel → t.sfe = s.sfe))

/-- R41–R45: the detector over one sample: not ready, quiet, arming; the onset with its record and the latch
taken; the quiet run that ends an episode at 12. R44, R49–R52, R78: a reported onset joins the associated
track, or takes the first free sequence and opens a track of its own where the table has a place, and posts
its JOIN of class 3 or NEW of class 1; an unreported one leaves the table. R53–R56: the peaks follow; where
the update fires the track, if the table still holds its id (log 34), takes the UPDATE, which is posted with
class 3, else the episode is no more recorded; where it does not fire the table stays. (log 40: the place of a
sighting among times in no order, and the victim.) -/
def Obligations.DetectorFollows : Prop :=
  ∀ (vane : BitVec 4) (lamp : Bool) (s : State), s.pins.rstLow = false →
    ∃ t, exec (.sampleEvent vane lamp) s = .next t ∧
      (s.sfe.anemoIn = false ∨ t.sfe.warming < 240 → t.gdu.mode = .notReady) ∧
      (s.sfe.anemoIn = true → t.sfe.warming = 240 →
        (s.gdu.mode = .notReady ∨ s.gdu.mode = .quiet →
          (qualifiesFor s t.sfe → t.gdu.mode = .arming) ∧
          (¬qualifiesFor s t.sfe → t.gdu.mode = .quiet)) ∧
        (s.gdu.mode = .arming → ¬qualifiesFor s t.sfe → t.gdu.mode = .quiet) ∧
        (s.gdu.mode = .arming → qualifiesFor s t.sfe →
          t.sfe.latch = false ∧ ∃ e, t.gdu.mode = .episode e ∧ e.onset = s.prt.time ∧
            e.sector = t.sfe.accepted ∧ e.peakSpeed = t.sfe.g3 ∧ e.peakDust = t.sfe.dustIndex ∧
            e.w = (s.sfe.latch || decide (s.sfe.supprLevel = s.ownRec.supprHigh)) ∧
            e.trusted = s.prt.trusted ∧ e.updates = 0 ∧ e.quiet = 0 ∧
            e.lastSpeed = t.sfe.g3 ∧ e.lastDust = t.sfe.dustIndex ∧
            e.reporting = decide (s.scs.station = .operating)) ∧
        (∀ e, s.gdu.mode = .episode e →
          (qualifiesFor s t.sfe → ∃ e', t.gdu.mode = .episode e' ∧ e'.quiet = 0 ∧
            e'.peakSpeed = max e.peakSpeed t.sfe.g3 ∧ e'.onset = e.onset) ∧
          (¬qualifiesFor s t.sfe → e.quiet + 1 < 12 → ∃ e', t.gdu.mode = .episode e' ∧
            e'.quiet = e.quiet + 1 ∧ e'.peakSpeed = max e.peakSpeed t.sfe.g3 ∧
            e'.onset = e.onset) ∧
          (¬qualifiesFor s t.sfe → 12 ≤ e.quiet + 1 → t.gdu.mode = .quiet))) ∧
      (∀ e, s.gdu.mode = .arming → t.gdu.mode = .episode e → TracksInv s →
        (e.reporting = false → e.track = none ∧ e.recorded = false ∧ t.tracks = s.tracks ∧
          t.gdu.nextSeq = s.gdu.nextSeq) ∧
        (e.reporting = true → ∀ id, s.associate e.sector e.onset = some id →
          e.track = some id ∧ e.recorded = true ∧ t.gdu.nextSeq = s.gdu.nextSeq ∧
          (∃ tr u, s.trackOf id = some tr ∧ SlotChanged s t tr u ∧ TrackKept tr u ∧
            SightingJoined tr (e.sighting s.scs.own) u ∧ TrackCompleted s tr.confirmed u) ∧
          .evaluation ∈ t.raised ∧
          (QueueInv s → s.nq.entries.length < 7 → s.entryOf (.sighting id) = none →
            PostedAnew s t (e.notice id .join) 3)) ∧
        (e.reporting = true → s.associate e.sector e.onset = none → ∃ j v : Nat, j < 256 ∧
          v = (s.gdu.nextSeq + j) % 256 ∧ s.trackOf ⟨s.scs.own, v⟩ = none ∧
          (∀ i, i < j → (s.trackOf ⟨s.scs.own, (s.gdu.nextSeq + i) % 256⟩).isSome = true) ∧
          e.track = some ⟨s.scs.own, v⟩ ∧ t.gdu.nextSeq = (v + 1) % 256 ∧
          (NoPlace s e.onset → e.recorded = false ∧ t.tracks = s.tracks) ∧
          (¬NoPlace s e.onset → e.recorded = true ∧ .evaluation ∈ t.raised ∧
            ∃ u, TrackPlaced s t e.onset u ∧ u.id = ⟨s.scs.own, v⟩ ∧ u.onset = some e.onset ∧
              u.placeholder = false ∧ u.sector = e.sector ∧ u.sightings = [e.sighting s.scs.own] ∧
              u.last = e.onset ∧ TrackCompleted s false u) ∧
          (QueueInv s → s.nq.entries.length < 7 → s.entryOf (.sighting ⟨s.scs.own, v⟩) = none →
            PostedAnew s t (e.notice ⟨s.scs.own, v⟩ .new) 1))) ∧
      (∀ e e', s.gdu.mode = .episode e → t.gdu.mode = .episode e' →
        let fires := e.reporting = true ∧ e.recorded = true ∧ e.updates < 3 ∧
          UpdateFires (site s.tables).updateStep e e'.peakSpeed e'.peakDust
        e'.peakDust = maxDust e.peakDust t.sfe.dustIndex ∧ e'.track = e.track ∧
        e'.trusted = e.trusted ∧ e'.sector = e.sector ∧ t.gdu.nextSeq = s.gdu.nextSeq ∧
        (¬fires → e'.recorded = e.recorded ∧ e'.updates = e.updates ∧ e'.w = e.w ∧
          e'.lastSpeed = e.lastSpeed ∧ e'.lastDust = e.lastDust ∧ t.tracks = s.tracks) ∧
        (fires → ∀ id, e.track = some id →
          (s.trackOf id = none → e'.recorded = false ∧ e'.updates = e.updates ∧
            e'.lastSpeed = e.lastSpeed ∧ e'.lastDust = e.lastDust ∧ t.tracks = s.tracks) ∧
          (∀ tr, s.trackOf id = some tr → TracksInv s →
            e'.recorded = true ∧ e'.updates = e.updates + 1 ∧ e'.w = (e.w || t.sfe.latch) ∧
            e'.lastSpeed = e'.peakSpeed ∧ e'.lastDust = e'.peakDust ∧ .evaluation ∈ t.raised ∧
            (∃ u, SlotChanged s t tr u ∧ TrackKept tr u ∧
              SightingUpdated tr (e'.sighting s.scs.own) s.prt.time u ∧
              TrackCompleted s tr.confirmed u) ∧
            (QueueInv s → s.scs.station ≠ .joining → s.nq.entries.length < 7 →
              s.entryOf (.sighting id) = none → PostedAnew s t (e'.notice id .update) 3))))

/-- R46–R48: the track an onset joins is a candidate that fits, with the least deviation of all fitting
candidates and, of equal deviations, the lowest id; none is joined exactly when none fits. R46: a candidate's
sector is within one of the episode's, and no sighting of it is the own station's. R47: a sighting is tested by
the first lane in force from its station to the own one that carries the track's sector, with the transit at the
track's peak speed, and does not fit where there is none, where it is later than the onset, or where its deviation
exceeds the tolerance; the deviation of a track is the least of its fitting sightings. (log 20: a lane count past
the 192 positions.) -/
def Obligations.AssociationLeast : Prop :=
  ∀ (s : State) (sector : Nat) (onset : Time),
    (∀ id, s.associate sector onset = some id →
      ∃ t ∈ liveTracks s.tracks, ∃ d, t.id = id ∧ t.candidate s.scs.own sector = true ∧
        trackDeviation s.tables s.scs.own t onset = some d ∧
        ∀ u ∈ liveTracks s.tracks, ∀ d', u.candidate s.scs.own sector = true →
          trackDeviation s.tables s.scs.own u onset = some d' →
          d < d' ∨ (d = d' ∧ (u.id = id ∨ idLower id u.id = true))) ∧
    (s.associate sector onset = none ↔
      ∀ u ∈ liveTracks s.tracks, u.candidate s.scs.own sector = true →
        trackDeviation s.tables s.scs.own u onset = none) ∧
    ∀ t : Track,
      (t.sector ≤ 15 → sector ≤ 15 → (t.candidate s.scs.own sector = true ↔
        (t.sector = sector ∨ t.sector = (sector + 1) % 16 ∨ sector = (t.sector + 1) % 16) ∧
        ∀ x ∈ t.sightings, x.station ≠ s.scs.own)) ∧
      (∀ d, trackDeviation s.tables s.scs.own t onset = some d ↔
        (∃ x ∈ t.sightings, fitDeviation s.tables s.scs.own t.sector t.peakSpeed x onset = some d) ∧
        ∀ x ∈ t.sightings, ∀ d',
          fitDeviation s.tables s.scs.own t.sector t.peakSpeed x onset = some d' → d ≤ d') ∧
      ∀ x : Sighting,
        let found := fitDeviation s.tables s.scs.own t.sector t.peakSpeed x onset
        let inForce := min (site s.tables).laneCount 192
        ((∀ i, i < inForce → ¬LaneCarries (laneRec s.tables i) x.station s.scs.own t.sector) →
          found = none) ∧
        ∀ i, i < inForce → LaneCarries (laneRec s.tables i) x.station s.scs.own t.sector →
          (∀ j, j < i → ¬LaneCarries (laneRec s.tables j) x.station s.scs.own t.sector) →
          FitFollows s.tables (laneRec s.tables i) t.peakSpeed x.time onset found

/-! ### Tracks and received sightings -/

/-- R192, R193, R138: the frame of a SIGHTING in range passes checks 1, 2 and 6, and every field of it
reads back as sent. -/
def Obligations.SightingFrameReads : Prop :=
  ∀ (sender : Nat) (stamp : Time) (p : SightingNotice), 1 ≤ sender → sender ≤ 32 →
    SightingInRange sender p →
    let f := frameBytes .sighting sender stamp (sightingBytes p)
    checkOk f = true ∧ frameKind (byteAt f 0) = some .sighting ∧ formOk .sighting f = true ∧
    f.length = 22 ∧ byteAt f 2 = sender ∧ timeAt f 3 = stamp ∧ readSighting f = some p

/-- R192, R193, R138: the frame of a PRESENCE in range passes checks 1, 2 and 6, and every field of it
reads back as sent. -/
def Obligations.PresenceFrameReads : Prop :=
  ∀ (sender : Nat) (stamp : Time) (a : Announced), 1 ≤ sender → sender ≤ 32 →
    AnnouncedInRange a →
    let f := frameBytes .presence sender stamp (announcedBytes a)
    checkOk f = true ∧ frameKind (byteAt f 0) = some .presence ∧ formOk .presence f = true ∧
    f.length = 18 + 2 * a.pairs.length ∧ byteAt f 2 = sender ∧ timeAt f 3 = stamp ∧
    readPresence f = some a

/-- R64, R65, R71, R76–R78, R133, R140: the frame of a peer's NEW. Of an unheld id it makes the track with
its one sighting in the lowest-numbered free slot, in a full table in the victim's slot, and is rejected with
TABLE_FULL where there is no victim; a placeholder of the id it fills. An admission raises the table change
and then the pre-check, and a fade deadline it sets that has already been reached passes (R71, R73); the
rotation count advances, the last-reject record and every other track stay. R77: which track is the victim,
where the last sighting times lie within 2^31 ms of each other. (log 40: the victim elsewhere, and the place of
a sighting among times in no order.) -/
def Obligations.PeerNewTracked : Prop :=
  (∀ (s : State) (r : RxFrame) (brought : List Byte) (sender : Nat)
    (stamp : Time) (p : SightingNotice),
    FrameArrives s r brought (frameBytes .sighting sender stamp (sightingBytes p)) →
    FromPeer s sender → SightingInRange sender p → p.form = .new → s.stale p.time = false →
    ∃ t, exec (.frameReceived brought) s = .next t ∧
      (s.trackOf p.id = none → none ∈ s.tracks → ∃ u, TrackPlaced s t p.time u ∧
        TrackCreated s p sender p.time u ∧ t.trackOf p.id = some u ∧
        (∀ id, id ≠ p.id → t.trackOf id = s.trackOf id) ∧
        t.qlc = s.qlc.afterFrame ∧
        (∃ l, t.raised = l ++ [.evaluation, .preCheck p.id] ++ fadeEvents s u)) ∧
      (TracksInv s → s.trackOf p.id = none → none ∉ s.tracks → ¬NoPlace s p.time →
        ∃ u, TrackPlaced s t p.time u ∧ TrackCreated s p sender p.time u ∧
          t.qlc = s.qlc.afterFrame ∧
          (∃ l, t.raised = l ++ [.evaluation, .preCheck p.id] ++ fadeEvents s u)) ∧
      (s.trackOf p.id = none → NoPlace s p.time →
        t.tracks = s.tracks ∧ t.qlc = s.qlc.afterReject 12 sender 0x32) ∧
      (∀ tr, TracksInv s → s.trackOf p.id = some tr → tr.placeholder = true →
        ∃ u, SlotChanged s t tr u ∧ u.id = p.id ∧ u.sector = p.sector ∧ u.onset = some p.time ∧
          u.placeholder = false ∧ u.last = laterTime tr.last p.time ∧
          TrackCompleted s tr.confirmed u ∧
          (sightingOf tr.sightings sender = none →
            u.sightings = placeSighting tr.sightings (p.record sender)) ∧
          (∀ h, sightingOf tr.sightings sender = some h →
            u.sightings = placeSighting tr.sightings { p.record sender with
              speed := max h.speed p.speed, dust := maxDust h.dust p.dust, w := h.w || p.w
              updates := max h.updates p.updates }) ∧
          t.qlc = s.qlc.afterFrame ∧
          (∃ l, t.raised = l ++ [.evaluation, .preCheck p.id] ++ fadeEvents s u))) ∧
  ∀ (ts : List Track) (time base : Time), (ts.map (·.id)).Nodup → 0 ≤ timeDiff time base →
    (∀ t ∈ ts, 0 ≤ timeDiff t.last base) →
    (∀ v, victim ts time = some v → v ∈ ts ∧
      ((v.state = .fading ∧ ∀ u ∈ ts, u.state = .fading → u = v ∨ v.older u = true) ∨
        (v.state = .opened ∧ v.placeholder = true ∧ (∀ u ∈ ts, u.state ≠ .fading) ∧
          ∀ u ∈ ts, u.state = .opened → u.placeholder = true → u = v ∨ v.older u = true) ∨
        (v.state = .opened ∧ v.placeholder = false ∧ earlier v.last time = true ∧
          (∀ u ∈ ts, u.state ≠ .fading ∧ (u.state = .opened → u.placeholder = false)) ∧
          ∀ u ∈ ts, u.state = .opened → u = v ∨ v.older u = true))) ∧
    (victim ts time = none → ∀ u ∈ ts, u.state = .confirmed ∨
      (u.state = .opened ∧ u.placeholder = false ∧ earlier u.last time = false))

/-- R66, R141: a peer's NEW for an id that a track holds which is no placeholder changes no track and
raises no table change: it is rejected with TRACK_DUPLICATE, its sender and kind recorded. R123, R133,
R135–R138, R141, R160: what a frame does at checks 1 to 7 as its last character ends it (O49: one truncated).
BAD_CHECK, for a wrong CRC or a length below 7, changes the last-reject record alone; from check 1 on the rotation count has advanced; BAD_FORM,
SENDER_RANGE. From check 3 on the sender has been heard, whatever the later checks find. OWN_NUMBER sets
DUPLICATE_STATION and abandons a frame in flight, whose entry returns (R132, R156; R189: a flag newly set
clears the health arm). TABLE_MISMATCH for a SIGHTING or ZONE of a MISMATCH sender, FIELD_RANGE, STALE_TIME.
(log 11: which characters a frame has; log 17: the wait for IDLE.) -/
def Obligations.DuplicateNewRejected : Prop :=
  (∀ (s : State) (r : RxFrame) (brought : List Byte) (sender : Nat)
    (stamp : Time) (p : SightingNotice) (tr : Track),
    FrameArrives s r brought (frameBytes .sighting sender stamp (sightingBytes p)) →
    stationPresent s.tables sender = true → sender ≠ s.scs.own →
    s.rosterState sender = some .present → SightingInRange sender p → p.form = .new →
    s.stale p.time = false → s.trackOf p.id = some tr → tr.placeholder = false →
    ∃ t, exec (.frameReceived brought) s = .next t ∧
      t.tracks = s.tracks ∧ t.raised = s.raisedAfter ∧ t.nq = s.nq ∧ t.zev = s.zev ∧
      t.qlc = s.qlc.afterReject 11 sender 0x32) ∧
  ∀ (s : State) (r : RxFrame) (brought f : List Byte),
    FrameEnds s r brought f → RosterOk s →
    let sender := byteAt f 2
    ∃ t, exec (.frameReceived brought) s = .next t ∧
      (¬CrcRight f → t = s.rejected f false 1) ∧
      (CrcRight f → ¬FormRight f → t = s.rejected f true 2) ∧
      (CrcRight f → FormRight f → stationPresent s.tables sender = false →
        t = s.rejected f true 3) ∧
      (CrcRight f → FormRight f → stationPresent s.tables sender = true → sender = s.scs.own →
        t = { s with
          nq := t.nq, qlc := t.qlc, raised := t.raised
          scs := { s.scs with
            faults := s.scs.faults.set .duplicateStation, quietEpoch := false
            healthArm := s.scs.healthArm && s.scs.faults.duplicateStation } } ∧
        t.qlc.rejectCause = 4 ∧ t.qlc.rejectSender = f.getD 2 0 ∧ t.qlc.rejectKind = f.getD 0 0 ∧
        t.qlc.rx = none ∧ t.qlc.rotation = (s.qlc.rotation + 1) % 32 ∧
        (s.scs.faults.duplicateStation = true →
          t.nq = s.nq ∧ t.qlc = (s.rejected f true 4).qlc) ∧
        (s.scs.faults.duplicateStation = false →
          t.qlc.inFlight = none ∧ t.qlc.holdoff = none ∧
          (s.qlc.inFlight.isSome = true →
            t.qlc.qde = false ∧ t.qlc.frame = [] ∧ t.qlc.ownRead = none) ∧
          ∀ k e, QueueInv s → s.nq.held = none → s.qlc.inFlight = some k → s.entryOf k = some e →
            t.entryOf k = some { e with inFlight := false })) ∧
      (CrcRight f → FormRight f → stationPresent s.tables sender = true → sender ≠ s.scs.own →
        (byteAt f 0 ≠ 0x31 ∨ ¬FieldsRight f → HeardFrom s t sender) ∧
        (s.rosterState sender = some .mismatch → byteAt f 0 ≠ 0x31 →
          t = { s.rejected f true 5 with
            prt := t.prt, raised := s.raisedAfter ++ heardEvents s sender }) ∧
        (s.rosterState sender ≠ some .mismatch ∨ byteAt f 0 = 0x31 → ¬FieldsRight f →
          t = { s.rejected f true 6 with
            prt := t.prt, raised := s.raisedAfter ++ heardEvents s sender }) ∧
        (s.rosterState sender ≠ some .mismatch → FieldsRight f → TimeStale s f →
          t = { s.rejected f true 7 with
            prt := t.prt, raised := s.raisedAfter ++ heardEvents s sender }))

/-- R67, R70, R61: a JOIN placed in a track: its sighting takes the place its time gives it among those of
the other stations, which stay in their order; a list of seven so made loses the second in order and no
other, so that the first is kept; the track keeps its id and sector, and its age moves on to the later of the
two times. R63, R67–R69, R71, R76–R78: the frame of a peer's JOIN or UPDATE of a held track changes that
track's slot so and no other; an UPDATE raises the sighting its station holds (log 21: its times), and is
placed as a JOIN where it holds none; of an unheld id either creates a placeholder where the table has a
place, and is rejected with TABLE_FULL where it has none. (log 40: among times in no order the sighting goes
before the first that it precedes.) -/
def Obligations.JoinPlaced : Prop :=
  (∀ (t : Track) (x : Sighting), TrackOk t →
    (t.joined x).sightings.length ≤ 6 ∧ ((t.joined x).sightings.map (·.station)).Nodup ∧
    (∃ before after, withoutStation t.sightings x.station = before ++ after ∧
      (∀ y ∈ before, x.before y = false) ∧ (∀ y, after.head? = some y → x.before y = true) ∧
      ((before ++ x :: after).length ≤ 6 → (t.joined x).sightings = before ++ x :: after) ∧
      (∀ a b l, before ++ x :: after = a :: b :: l → l.length = 5 →
        (t.joined x).sightings = a :: l)) ∧
    (∀ y ∈ withoutStation t.sightings x.station, y ∈ t.sightings ∧ y.station ≠ x.station) ∧
    (∀ y ∈ t.sightings, y.station ≠ x.station → y ∈ withoutStation t.sightings x.station) ∧
    (t.joined x).id = t.id ∧ (t.joined x).sector = t.sector ∧
    (t.joined x).last = laterTime t.last x.time) ∧
  ∀ (s : State) (r : RxFrame) (brought : List Byte) (sender : Nat)
    (stamp : Time) (p : SightingNotice),
    FrameArrives s r brought (frameBytes .sighting sender stamp (sightingBytes p)) →
    FromPeer s sender → SightingInRange sender p → p.form ≠ .new → s.stale p.time = false →
    TracksInv s →
    let updateTime := if earlier s.prt.time stamp then s.prt.time else stamp
    ∃ t, exec (.frameReceived brought) s = .next t ∧
      (∀ tr, s.trackOf p.id = some tr →
        ∃ u, SlotChanged s t tr u ∧ TrackKept tr u ∧ TrackCompleted s tr.confirmed u ∧
          (p.form = .join → SightingJoined tr (p.record sender) u) ∧
          (p.form = .update → SightingUpdated tr (p.record sender) updateTime u) ∧
          t.qlc = s.qlc.afterFrame ∧ (∃ l, t.raised = l ++ [.evaluation] ++ fadeEvents s u)) ∧
      (s.trackOf p.id = none → ¬NoPlace s p.time →
        ∃ u, TrackPlaced s t p.time u ∧ TrackCreated s p sender updateTime u ∧
          t.qlc = s.qlc.afterFrame ∧ (∃ l, t.raised = l ++ [.evaluation] ++ fadeEvents s u)) ∧
      (s.trackOf p.id = none → NoPlace s p.time →
        t.tracks = s.tracks ∧ t.qlc = s.qlc.afterReject 12 sender 0x32)

/-- R72: the confirmed mark after an admission: kept when set, else set exactly when enough trusted
sightings stand in the list, or a trusted rank-0 one with heavy dust. -/
def Obligations.ConfirmationRule : Prop :=
  ∀ (m : Memory) (t : Track),
    (t.complete m).confirmed = true ↔
      (t.confirmed = true ∨ (site m).confirmCount ≤ t.sightings.countP (·.trusted) ∨
        ∃ x ∈ t.sightings, ∃ d, x.trusted = true ∧ rankOf m x.station = some 0 ∧
          x.dust = some d ∧ (site m).pileDust ≤ d)

/-- R72: once set, the confirmed mark of a track stays set while the track is in the table: whatever the
step (R134: one step checks one frame at most). -/
def Obligations.ConfirmedStays : Prop :=
  ∀ (s s' : State) (id : TrackId) (t t' : Track), TracksInv s → step s = .next s' →
    s.trackOf id = some t → t.confirmed = true → s'.trackOf id = some t' → t'.confirmed = true

/-- R73, R74: when the fade deadline of an OPEN or CONFIRMED track has passed it becomes FADING with the
close deadline from now; when the close deadline of a FADING track has passed the track is gone and its
slot free; each raises one table change and leaves every other track. Not yet passed, nothing changes but
the waiting event, which is taken: that is the model's reading of a deadline command sent early (log 6). -/
def Obligations.DeadlinesTaken : Prop :=
  ∀ (s : State) (id : TrackId) (t : Track), s.pins.rstLow = false → TracksInv s →
    s.trackOf id = some t →
    (∃ s', exec (.fadeDeadline id) s = .next s' ∧
      let r := s.raised.eraseP fun e => decide (e = .fadeDeadline id)
      (t.state ≠ .fading ∧ reached s.prt.time t.fade = true →
        s' = { s with tracks := s'.tracks, raised := r ++ [.evaluation] } ∧
        s'.trackOf id = some { t with
          state := .fading
          close := some (s.prt.time + seconds (site s.tables).closeTime) } ∧
        ∀ i, i ≠ id → s'.trackOf i = s.trackOf i) ∧
      (¬(t.state ≠ .fading ∧ reached s.prt.time t.fade = true) → s' = { s with raised := r })) ∧
    (∃ s', exec (.closeDeadline id) s = .next s' ∧
      let r := s.raised.eraseP fun e => decide (e = .closeDeadline id)
      (∀ d, t.state = .fading → t.close = some d → reached s.prt.time d = true →
        s' = { s with tracks := s'.tracks, raised := r ++ [.evaluation] } ∧
        s'.trackOf id = none ∧ none ∈ s'.tracks ∧ ∀ i, i ≠ id → s'.trackOf i = s.trackOf i) ∧
      ((∀ d, t.close = some d → reached s.prt.time d = false) → s' = { s with raised := r }))

/-- R151, R152, R79: a pre-check for a peer's track P, no entry for P waiting. Of the candidate entries it
chooses the one of least deviation, between equal ones that of the lower id; its NEW of Q becomes a JOIN of P
of class 3 with everything else it carried, its post time and its attempts; the entry of Q is gone and every
other entry stays. Q leaves the table, P takes the own sighting, and the episode whose track was Q follows P
with its record. A table change is raised. With no candidate nothing changes. (log 40: the place of the own
sighting among times in no order.) -/
def Obligations.PreCheckRewrites : Prop :=
  ∀ (s : State) (p : TrackId) (tp : Track), s.pins.rstLow = false → TracksInv s → QueueInv s →
    s.trackOf p = some tp → s.entryOf (.sighting p) = none →
    ∃ s', exec (.preCheck p) s = .next s' ∧
      ((∃ e ∈ s.nq.entries, ∃ c, s.candidateEntry tp e = some c) →
        ∃ q d tq x u e e' n,
          e ∈ s.nq.entries ∧ s.candidateEntry tp e = some (q, d) ∧
          (∀ y ∈ s.nq.entries, ∀ c, s.candidateEntry tp y = some c →
            d < c.2 ∨ (d = c.2 ∧ (c.1 = q ∨ idLower q c.1 = true))) ∧
          e.notice = .sighting n ∧ n.id = q ∧ n.form = .new ∧
          e' = { e with notice := .sighting { n with form := .join, id := p }, cls := 3 } ∧
          e' ∈ s'.nq.entries ∧ s'.entryOf (.sighting q) = none ∧
          s'.nq.entries.length = s.nq.entries.length ∧
          (∀ y ∈ s.nq.entries, y ≠ e → y ∈ s'.nq.entries) ∧
          s.trackOf q = some tq ∧ tq.sightings = [x] ∧ x.station = s.scs.own ∧
          s'.trackOf q = none ∧ s'.trackOf p = some u ∧ TrackKept tp u ∧ SightingJoined tp x u ∧
          TrackCompleted s tp.confirmed u ∧
          (∀ i, i ≠ p → i ≠ q → s'.trackOf i = s.trackOf i) ∧
          s'.gdu = { s.gdu with mode :=
            match s.gdu.mode with
            | .episode ep =>
              .episode { ep with track := if ep.track = some q then some p else ep.track }
            | m => m } ∧
          .evaluation ∈ s'.raised ∧
          s' = { s with
            tracks := s'.tracks, gdu := s'.gdu, raised := s'.raised
            nq := { s.nq with entries := s'.nq.entries }
            qlc := { s.qlc with
              holdoff := s'.qlc.holdoff, seqReg := s'.qlc.seqReg, drawn := s'.qlc.drawn } }) ∧
      ((∀ e ∈ s.nq.entries, s.candidateEntry tp e = none) →
        s' = { s with raised := s.raised.eraseP fun e => decide (e = .preCheck p) })

/-! ### Evaluations, levels, outputs -/

/-- R84, R95, R98: a TICK or EVALUATION in JOINING or OPERATING writes every zone's demand: the greatest
level that any track calls for, CLEAR for none and for a MIRROR zone; zone, pair and last announced level
stay, nothing is posted in JOINING. In the other states it writes demand CLEAR and nothing else. -/
def Obligations.EvaluationDemand : Prop :=
  ∀ (c : Instr) (s : State), c ∈ [Instr.tick, .evaluation] → s.pins.rstLow = false →
    (s.active = true →
      ∃ t, exec c s = .next t ∧
        t = { s with zev := t.zev, nq := t.nq, qlc := t.qlc, raised := t.raised } ∧
        (s.scs.station = .joining → t.nq = s.nq ∧ t.qlc = s.qlc) ∧
        t.zev.received = s.zev.received ∧ t.zev.zones.length = s.zev.zones.length ∧
        ∀ (k : Nat) (z z' : ZoneState), s.zev.zones[k]? = some z → t.zev.zones[k]? = some z' →
          z'.zone = z.zone ∧ z'.pair = z.pair ∧ z'.announced = z.announced ∧
          ((zoneRec s.tables z.zone).kind = .mirror → z'.demand = .clear) ∧
          ((zoneRec s.tables z.zone).kind.computes = true →
            (∀ tr ∈ liveTracks s.tracks, ∀ l, call s.tables z.zone tr s.prt.time = some l →
              l.toNat ≤ z'.demand.toNat) ∧
            (z'.demand = .clear ∨ ∃ tr ∈ liveTracks s.tracks,
              call s.tables z.zone tr s.prt.time = some z'.demand))) ∧
    (s.active = false →
      ∃ r, exec c s = .next { s with
        zev := { s.zev with zones := s.zev.zones.map fun z => { z with demand := .clear } }
        raised := r })

/-- R100–R102: in JOINING and OPERATING each evaluation runs every zone's level machine once, on demand,
on the mirror contribution or on the greater of both, by the zone's kind. -/
def Obligations.EvaluationLevels : Prop :=
  ∀ (c : Instr) (s : State), c ∈ [Instr.tick, .evaluation] → s.pins.rstLow = false →
    s.active = true →
    ∃ t, exec c s = .next t ∧
      ∀ (k : Nat) (z z' : ZoneState), s.zev.zones[k]? = some z → t.zev.zones[k]? = some z' →
        ((zoneRec s.tables z.zone).kind = .computed →
          LevelFollows z'.demand s.prt.time (zoneRec s.tables z.zone).holdTime z z') ∧
        ((zoneRec s.tables z.zone).kind = .mirror →
          LevelFollows z'.contribution s.prt.time (zoneRec s.tables z.zone).holdTime z z') ∧
        ((zoneRec s.tables z.zone).kind = .combined →
          LevelFollows
            (if z'.demand.toNat < z'.contribution.toNat then z'.contribution else z'.demand)
            s.prt.time (zoneRec s.tables z.zone).holdTime z z')

/-- R99, R106–R111: in each evaluation a MIRROR or COMBINED zone follows its GOOD source, and holds and
lets down its contribution while the source is LOST; a COMPUTED zone's mirror fields stay. R105, R135,
R139: a peer's ZONE frame is rejected with ZONE_RANGE, ZONE_ABSENT or ZONE_NOT_OWNER, and then reports nothing;
else, in JOINING and OPERATING, it is the report of its zone where that is a mirror source: level and receipt
time are taken, the LOST mark stays, and a changed level raises an evaluation. -/
def Obligations.EvaluationMirrors : Prop :=
  (∀ (c : Instr) (s : State), c ∈ [Instr.tick, .evaluation] → s.pins.rstLow = false →
    s.active = true →
    ∃ t, exec c s = .next t ∧
      ∀ (k : Nat) (z z' : ZoneState), s.zev.zones[k]? = some z → t.zev.zones[k]? = some z' →
        ((zoneRec s.tables z.zone).kind.mirrors = true →
          ∀ r, s.receivedOf (zoneRec s.tables z.zone).source = some r →
            MirrorFollows (SourceIsGood s (zoneRec s.tables z.zone).source r) r s.prt.time
              (zoneRec s.tables z.zone).holdTime z z') ∧
        ((zoneRec s.tables z.zone).kind.mirrors = false →
          z'.contribution = z.contribution ∧ z'.lost = z.lost ∧
          z'.lostDeadline = z.lostDeadline ∧ z'.degraded = z.degraded)) ∧
  ∀ (s : State) (r : RxFrame) (brought : List Byte) (sender : Nat)
    (stamp : Time) (zone : Nat) (level : Level), zone ≤ 255 →
    FrameArrives s r brought
      (frameBytes .zone sender stamp [byteOf zone, byteOf level.toNat]) →
    FromPeer s sender →
    ∃ t, exec (.frameReceived brought) s = .next t ∧ t.zev.zones = s.zev.zones ∧
      t.tracks = s.tracks ∧ t.nq = s.nq ∧
      ((site s.tables).zoneCount ≤ zone →
        t.zev = s.zev ∧ t.qlc = s.qlc.afterReject 8 sender 0x33) ∧
      (zone < (site s.tables).zoneCount → zonePresent s.tables zone = false →
        t.zev = s.zev ∧ t.qlc = s.qlc.afterReject 9 sender 0x33) ∧
      (zone < (site s.tables).zoneCount → zonePresent s.tables zone = true →
        (zoneRec s.tables zone).owner ≠ sender →
        t.zev = s.zev ∧ t.qlc = s.qlc.afterReject 10 sender 0x33) ∧
      (zoneDescribed s.tables zone = true → (zoneRec s.tables zone).owner = sender →
        t.qlc = s.qlc.afterFrame ∧
        (s.active = false ∨ s.receivedOf zone = none → t.zev = s.zev) ∧
        ∀ old, s.active = true → s.receivedOf zone = some old →
          t.receivedOf zone = some
            { zone := zone, received := true, level := level, lostMark := old.lostMark
              receipt := s.prt.time } ∧
          (∀ z, z ≠ zone → t.receivedOf z = s.receivedOf z) ∧
          (level ≠ old.level → ∃ l, t.raised = l ++ [.evaluation]))

/-- R85, R112: an evaluation for the ACK pending flag clears the flag, does what the evaluation does, and
acknowledges every owned zone then at WARN or ALARM, no other; without the flag nothing is taken. -/
def Obligations.AckAcknowledges : Prop :=
  ∀ s : State, s.pins.rstLow = false →
    (s.sfe.ackPending = true →
      ∃ t u, exec .ackEvaluation s = .next t ∧ exec .evaluation s = .next u ∧
        t = { s with
          sfe := { s.sfe with ackPending := false }
          zev := t.zev, nq := u.nq, qlc := u.qlc, raised := t.raised } ∧
        t.zev.received = u.zev.received ∧
        t.zev.zones = u.zev.zones.map fun z =>
          { z with acked := z.acked || decide (z.level = .warn ∨ z.level = .alarm) }) ∧
    (s.sfe.ackPending = false → ∃ r, exec .ackEvaluation s = .next { s with raised := r })

/-- R117: at a station of one owned zone, an evaluation in OPERATING that changes the zone's level queues
a ZONE notice of the new level, of class 0 for a rise to ALARM, 2 for another rise, 4 for a drop; one that
does not change it leaves the queue. At a station of several, with room for them all, each zone whose level
the evaluation has changed has such a notice, posted in ascending zone number. R145–R147, R149, R150: what a
post of any kind does. For a key that no entry holds it is placed, in a full queue in place of the entry last
in order among those not in flight, where that entry's class is greater, else it is dropped. Into a waiting
entry of its key it is folded: an UPDATE gives its peaks, W and update count, a NEW or JOIN its whole payload
and class, a ZONE its level and class, and is withdrawn with the entry where that level is the last announced
one. For the key of the entry in flight it becomes the held post, or is folded into it with no withdrawal. -/
def Obligations.ZoneNoticePosted : Prop :=
  (∀ (c : Instr) (s : State) (z : ZoneState), c ∈ [Instr.tick, .evaluation] →
    s.pins.rstLow = false → s.scs.station = .operating → s.zev.zones = [z] →
    ∃ t z', exec c s = .next t ∧ t.zev.zones = [z'] ∧
      (z'.level = z.level → t.nq = s.nq ∧ t.qlc = s.qlc) ∧
      (z'.level ≠ z.level → s.entryOf (.zone z.zone) = none → s.nq.entries.length < 8 →
        t.nq.entries.length = s.nq.entries.length + 1 ∧ (∀ e ∈ s.nq.entries, e ∈ t.nq.entries) ∧
        PostedAnew s t (.zone z.zone z'.level)
          (if z'.level.toNat < z.level.toNat then 4 else if z'.level = .alarm then 0 else 2))) ∧
  (∀ (c : Instr) (s : State), c ∈ [Instr.tick, .evaluation] → s.pins.rstLow = false →
    s.scs.station = .operating → (s.zev.zones.map (·.zone)).Pairwise (· < ·) →
    s.nq.entries.length + s.zev.zones.length ≤ 8 →
    (∀ z ∈ s.zev.zones, s.entryOf (.zone z.zone) = none) →
    ∃ t, exec c s = .next t ∧ (∀ e ∈ s.nq.entries, e ∈ t.nq.entries) ∧
      (∀ e ∈ t.nq.entries, e ∈ s.nq.entries ∨ ∃ z ∈ t.zev.zones, e.notice = .zone z.zone z.level) ∧
      ∀ (k : Nat) (z z' : ZoneState), s.zev.zones[k]? = some z → t.zev.zones[k]? = some z' →
        (z'.level = z.level → t.entryOf (.zone z.zone) = none) ∧
        (z'.level ≠ z.level → ∃ e, t.entryOf (.zone z.zone) = some e ∧
          e.notice = .zone z.zone z'.level ∧
          e.cls = (if z'.level.toNat < z.level.toNat then 4 else if z'.level = .alarm then 0 else 2) ∧
          e.postTime = s.prt.time ∧ e.attempts = 0 ∧ e.inFlight = false ∧
          ∀ (j : Nat) (y y' : ZoneState), j < k → s.zev.zones[j]? = some y →
            t.zev.zones[j]? = some y' → y'.level ≠ y.level →
            ∃ d, t.entryOf (.zone y.zone) = some d ∧ d.order < e.order)) ∧
  ∀ (s : State) (n : Notice) (cls : Nat), QueueInv s →
    (s.scs.station = .joining → n = .presence) →
    let t := s.post cls n
    (s.entryOf n.key = none → s.nq.entries.length < 8 →
      PostedAnew s t n cls ∧ t.nq.entries.length = s.nq.entries.length + 1 ∧
      ∀ e ∈ s.nq.entries, e ∈ t.nq.entries) ∧
    (s.entryOf n.key = none → s.nq.entries.length = 8 → ∀ before after v,
      s.nq.entries = before ++ v :: after → v.inFlight = false → (∀ e ∈ after, e.inFlight = true) →
      (cls < v.cls → PostedAnew s t n cls ∧ v ∉ t.nq.entries ∧ t.nq.entries.length = 8 ∧
        ∀ e ∈ s.nq.entries, e ≠ v → e ∈ t.nq.entries) ∧
      (v.cls ≤ cls → t.nq.entries = s.nq.entries)) ∧
    (∀ x, s.entryOf n.key = some x → x.inFlight = false →
      (∀ e, e.key ≠ n.key → (e ∈ t.nq.entries ↔ e ∈ s.nq.entries)) ∧ t.nq.held = s.nq.held ∧
      (∀ a b, x.notice = .sighting a → n = .sighting b → b.form = .update →
        t.entryOf n.key = some { x with notice := .sighting { a with
          speed := b.speed, dust := b.dust, w := b.w, updates := b.updates } }) ∧
      (∀ b, n = .sighting b → b.form ≠ .update →
        t.entryOf n.key = some { x with notice := n, cls := cls }) ∧
      (∀ z l, n = .zone z l →
        (s.announced z = some l → t.entryOf n.key = none) ∧
        (s.announced z ≠ some l → t.entryOf n.key = some { x with notice := n, cls := cls }))) ∧
    (∀ x, s.entryOf n.key = some x → x.inFlight = true → t.nq.entries = s.nq.entries ∧
      (s.nq.held = none → ∃ h, t.nq.held = some h ∧ h.notice = n ∧ h.cls = cls ∧
        h.postTime = s.prt.time ∧ h.attempts = 0 ∧ h.inFlight = false) ∧
      (∀ h, s.nq.held = some h →
        (n = .presence → t.nq.held = some h) ∧
        (∀ a b, h.notice = .sighting a → n = .sighting b → b.form = .update →
          t.nq.held = some { h with notice := .sighting { a with
            speed := b.speed, dust := b.dust, w := b.w, updates := b.updates } }) ∧
        (∀ b, n = .sighting b → b.form ≠ .update →
          t.nq.held = some { h with notice := n, cls := cls }) ∧
        (∀ z l, n = .zone z l → t.nq.held = some { h with notice := n, cls := cls })))

/-- R87–R89, R92–R94: a level that a track calls for is WATCH, WARN or ALARM; the track's latest
predicted arrival is at most one hold time past and, with the leads in order, within the watch lead; an
unconfirmed track calls for WATCH at most; ALARM asks for rank authority, and for a present peak dust
where the predicate uses D. R87–R94 the other way: a track with a prediction, whose latest predicted arrival is at
most one hold time past and whose predicate is true, calls for the first of ALARM, WARN and WATCH whose lead,
confirmed mark and rank authority hold, ALARM capped at WARN where absent dust asks for it; with none of these, or
with no prediction, past the hold time, or with a false predicate, it calls for none. (log 20: a predicate code
past 15 is false.) -/
def Obligations.CallsBounded : Prop :=
  (∀ (m : Memory) (i : Nat) (t : Track) (now : Time) (l : Level), call m i t now = some l →
    l ≠ .clear ∧ predicateHolds (zoneRec m i) t = true ∧
    (t.confirmed = false → l = .watch) ∧
    (l = .alarm → ∃ x ∈ t.sightings, ∃ r, rankOf m x.station = some r ∧ r ≤ (zoneRec m i).alarmRank) ∧
    (l = .alarm → usesD (zoneRec m i).predicate = true → t.peakDust.isSome = true) ∧
    ∃ eta, (∃ a ∈ approaches m i, approachEta t now a = some eta) ∧
      (∀ a ∈ approaches m i, ∀ e, approachEta t now a = some e → e ≤ eta) ∧
      -((zoneRec m i).holdTime * 1000 : Nat) ≤ eta ∧
      (l = .alarm → eta ≤ ((zoneRec m i).alarmLead * 1000 : Nat)) ∧
      ((zoneRec m i).alarmLead ≤ (zoneRec m i).warnLead →
        (zoneRec m i).warnLead ≤ (zoneRec m i).watchLead →
        eta ≤ ((zoneRec m i).watchLead * 1000 : Nat))) ∧
  ∀ (m : Memory) (i : Nat) (t : Track) (now : Time),
    (∀ eta, Predicts m i t now eta → (∀ e, Predicts m i t now e → e ≤ eta) →
      (-((zoneRec m i).holdTime * 1000 : Nat) ≤ eta → PredicateMet (zoneRec m i) t →
        CallFollows m i t eta (call m i t now)) ∧
      (eta < -((zoneRec m i).holdTime * 1000 : Nat) → call m i t now = none)) ∧
    ((∀ eta, ¬Predicts m i t now eta) → call m i t now = none) ∧
    (¬PredicateMet (zoneRec m i) t → call m i t now = none)

/-- R113–R116: with RST released, a pair bound to no owned zone is dark and silent; a bound pair of a
station that is not OPERATING shows NO SERVICE and is silent; in OPERATING it shows the pattern of its
zone's level with the LOST overlay's gap, and sounds at WARN and ALARM unless acknowledged. -/
def Obligations.OutputsShow : Prop :=
  ∀ (s : State) (pair : Nat), s.pins.rstLow = false →
    (s.boundZone pair = none → s.beacon pair = false ∧ s.sounder pair = false) ∧
    ∀ z, s.boundZone pair = some z →
      (s.scs.station ≠ .operating → s.sounder pair = false ∧
        (s.beacon pair = true ↔ s.prt.time.toNat % 2000 < 200 ∨
          (400 ≤ s.prt.time.toNat % 2000 ∧ s.prt.time.toNat % 2000 < 600))) ∧
      (s.scs.station = .operating →
        (s.beacon pair = true ↔
          ((z.level = .watch ∧ s.prt.time.toNat % 4000 < 1000) ∨
            (z.level = .warn ∧ s.prt.time.toNat % 1000 < 500) ∨ z.level = .alarm) ∧
          ¬(z.degraded = true ∧ 200 ≤ s.prt.time.toNat % 1000 ∧ s.prt.time.toNat % 1000 < 300)) ∧
        (s.sounder pair = true ↔ z.acked = false ∧
          (z.level = .alarm ∨ (z.level = .warn ∧ s.prt.time.toNat % 2000 < 1000))))

/-- R190: TROUBLE is asserted exactly while a flag is set, the state is not OPERATING, or RST is low; it
is a function of the state as it stands, and in OPERATING no flag changes the zone outputs. -/
def Obligations.TroubleShown : Prop :=
  ∀ s : State,
    (s.trouble = true ↔
      s.pins.rstLow = true ∨ s.scs.station ≠ .operating ∨ ∃ f, s.scs.faults.get f = true) ∧
    (s.trouble = false ↔
      s.pins.rstLow = false ∧ s.scs.station = .operating ∧ ∀ f, s.scs.faults.get f = false) ∧
    (s.scs.station = .joining → s.trouble = true) ∧
    (s.scs.faults.duplicateStation = true → s.trouble = true) ∧
    ∀ (f : Faults) (pair : Nat),
      ({ s with scs := { s.scs with faults := f } }).beacon pair = s.beacon pair ∧
      ({ s with scs := { s.scs with faults := f } }).sounder pair = s.sounder pair

/-! ### Notice Queue and line -/

/-- R148, with R172 and R145: the schedule point in JOINING and OPERATING posts a PRESENCE of class 4. A
PRESENCE post while a PRESENCE entry waits not in flight leaves the entries as they are; the waiting
PRESENCE is assembled when it starts, from the state as it stands then, with the flag whose setting
caused a post. -/
def Obligations.PresenceFolded : Prop :=
  ∀ s : State, s.pins.rstLow = false → QueueInv s →
    (s.active = true → ∃ t, exec .schedulePoint s = .next t ∧
      t = { s with nq := t.nq, qlc := t.qlc, raised := t.raised } ∧
      (s.entryOf .presence = none → s.nq.entries.length < 8 →
        t.nq.entries.length = s.nq.entries.length + 1 ∧ (∀ e ∈ s.nq.entries, e ∈ t.nq.entries) ∧
        ∃ e ∈ t.nq.entries, e.notice = .presence ∧ e.cls = 4 ∧ e.postTime = s.prt.time ∧
          e.attempts = 0 ∧ e.inFlight = false)) ∧
    (s.active = false → ∃ r, exec .schedulePoint s = .next { s with raised := r }) ∧
    ∀ x, s.entryOf .presence = some x → x.inFlight = false →
      (∀ cls, (s.post cls .presence).nq.entries = s.nq.entries ∧
        (s.post cls .presence).nq.held = s.nq.held) ∧
      (∀ f, (s.faultEvent f).scs.faults.get f = true ∧
        (s.faultEvent f).presencePayload.faults = (s.scs.faults.set f).bits) ∧
      ∀ quiet h, s.qlc.holdoff = some h → h.selected = .presence → h.length ≤ quiet → quiet ≤ 255 →
        ∃ t, exec (.holdoffExpiry quiet) s = .next t ∧
          t.qlc.frame =
            frameBytes .presence s.scs.own s.prt.time (announcedBytes s.presencePayload)

/-- R122, R124–R127, R134: a start bit on an IDLE line makes it BUSY, stops a running holdoff and records
the arrival time of the frame it begins; on a BUSY line it begins the wait for IDLE again. When the line
becomes IDLE, quiet time restarts and, with an eligible notice queued, a holdoff begins for the first
eligible one, the most urgent where the entries stand in urgency order, with a draw and the length of
R125. R123, R134, R136: the line's IDLE ends a frame still being read, which is rejected with BAD_CHECK before
the line is IDLE (R133: a frame's checks, the advance of the rotation count among them, come before it); where no
frame is being read characters form none, and those that do not complete a frame are kept in its record and begin
the wait for IDLE again (log 11, log 17; O57: no record holds a whole frame). R125, R128: what QLC's following of the
queue and of eligibility does, after a SCHEDULE_POINT's post and after CLEAR_FAULTS among others: a running
holdoff takes the selected notice, with its length from the drawn value and the rotation count of the
holdoff's beginning, or stops where no notice is selected; with none running on an IDLE line a selected notice
begins one; its running out waits exactly when quiet time has reached the length. -/
def Obligations.LineAccess : Prop :=
  ∀ s : State, s.pins.rstLow = false → QueueInv s →
    (s.qlc.busy = false → ∃ r, exec .lineBusy s = .next { s with
      qlc := { s.qlc with
        busy := true, holdoff := none, idleIn := 125
        rx := some { arrival := s.prt.time, chars := [] } }
      raised := r }) ∧
    (s.qlc.busy = true → exec .lineBusy s = .next { s with
      qlc := { s.qlc with idleIn := 125 }
      raised := s.raised.filter fun e => !decide (e = .lineIdle) }) ∧
    (s.qlc.busy = false ∨ s.qlc.inFlight.isSome = true → exec .lineIdle s = .next { s with
      raised := s.raised.eraseP fun e => decide (e = .lineIdle) }) ∧
    (s.qlc.busy = true → s.qlc.inFlight = none → FramesOpen s →
      ∃ t, exec .lineIdle s = .next t ∧
        t = { s with
          qlc := { s.qlc with
            busy := false, quiet := 0, quietFrac := 0, rx := none
            holdoff := t.qlc.holdoff, seqReg := t.qlc.seqReg, drawn := t.qlc.drawn
            rejectCause := t.qlc.rejectCause, rejectSender := t.qlc.rejectSender
            rejectKind := t.qlc.rejectKind }
          raised := t.raised } ∧
        (s.qlc.rx = none → t.qlc.rejectCause = s.qlc.rejectCause ∧
          t.qlc.rejectSender = s.qlc.rejectSender ∧ t.qlc.rejectKind = s.qlc.rejectKind) ∧
        (∀ r, s.qlc.rx = some r → t.qlc.rejectCause = 1 ∧
          t.qlc.rejectSender = r.chars.getD 2 0 ∧ t.qlc.rejectKind = r.chars.getD 0 0) ∧
        (∀ e ∈ s.nq.entries, s.eligible e.notice = true →
          ((∃ before after, s.nq.entries = before ++ e :: after ∧
              ∀ x ∈ before, s.eligible x.notice = false) ∨
            (InUrgencyOrder s.nq.entries ∧
              ∀ x ∈ s.nq.entries, s.eligible x.notice = true → x = e ∨ e.before x = true)) →
          t.qlc.seqReg = seqAdvance s.qlc.seqReg ∧
          t.qlc.drawn = (seqAdvance s.qlc.seqReg).toNat % 8 ∧
          t.qlc.holdoff = some
            { selected := e.key
              length := 40 * e.cls + ((s.scs.own - 1 + s.qlc.rotation) % 32 + 1) +
                e.attempts * ((seqAdvance s.qlc.seqReg).toNat % 8)
              rotation := s.qlc.rotation }) ∧
        ((∀ e ∈ s.nq.entries, s.eligible e.notice = false) → t.qlc.holdoff = none ∧
          t.qlc.seqReg = s.qlc.seqReg)) ∧
    (∀ brought : List Byte,
      (s.qlc.rx = none → exec (.frameReceived brought) s = .next s) ∧
      (∀ r, s.qlc.rx = some r → frameWhole (r.chars ++ brought) = false →
        exec (.frameReceived brought) s =
          if brought = [] then .next s
          else .next { s with
            qlc := { s.qlc with idleIn := 100, rx := some { r with chars := r.chars ++ brought } }
            raised := s.raisedAfter })) ∧
    QueueFollowed s s.follow ∧
    (s.active = true → ∃ t, exec .schedulePoint s = .next t ∧
      t = State.follow { s with
        nq := t.nq, raised := s.raised.eraseP fun e => decide (e = .schedulePoint) }) ∧
    (s.portOpen = true → s.scs.busy = .clear → s.scs.station ≠ .programming →
      ∃ t, exec .clearFaults s = .next t ∧ t = State.follow { s with scs := t.scs })

/-- R129, R153: a holdoff that runs out starts transmission: the selected entry is in flight, QDE is
asserted, the line BUSY, and the frame driven carries the own number, the common time now and the
entry's payload. With no holdoff running nothing starts. -/
def Obligations.HoldoffRunsOut : Prop :=
  ∀ (s : State) (quiet : Nat), s.pins.rstLow = false →
    (∀ h e, s.qlc.holdoff = some h → h.length ≤ quiet → quiet ≤ 255 →
      s.entryOf h.selected = some e →
      ∃ t, exec (.holdoffExpiry quiet) s = .next t ∧
        t = { s with nq := t.nq, qlc := t.qlc, raised := t.raised } ∧
        t.nq = { s.nq with entries := s.nq.entries.map fun x =>
          if x.key = h.selected then { x with inFlight := true } else x } ∧
        t.qlc.busy = true ∧ t.qlc.qde = true ∧ t.qlc.inFlight = some h.selected ∧
        t.qlc.holdoff = none ∧ t.qlc.ownRead = some { arrival := s.prt.time, chars := [] } ∧
        (∀ p, e.notice = .sighting p →
          t.qlc.frame = frameBytes .sighting s.scs.own s.prt.time (sightingBytes p)) ∧
        (∀ z l, e.notice = .zone z l →
          t.qlc.frame = frameBytes .zone s.scs.own s.prt.time [byteOf z, byteOf l.toNat]) ∧
        (e.notice = .presence → ∃ a,
          t.qlc.frame = frameBytes .presence s.scs.own s.prt.time (announcedBytes a) ∧
          a.operating = decide (s.scs.station = .operating) ∧ a.lock = s.prt.lock ∧
          a.trusted = s.prt.trusted ∧ a.checksum = s.scs.checksum ∧ a.trim = s.prt.trim ∧
          a.faults = s.scs.faults.bits ∧ a.s60 = s.sfe.s60 ∧
          a.pairs = (if s.scs.station = .operating then
            s.zev.zones.map fun z => { zone := z.zone, level := z.level, lostMark := z.degraded }
            else []))) ∧
    (s.qlc.holdoff = none → ∃ r, exec (.holdoffExpiry quiet) s = .next { s with raised := r })

/-- R119, R130, R131, R133, R154, R155: a frame sent in full leaves the queue, advances the rotation
count and, for a ZONE, sets the last announced level; the line waits 4 character times for IDLE. A collision
raises the entry's attempts and returns it, or at the sixth discards it with LINE_TROUBLE; the rotation count
stays, and the frame is read on from its own start bit with the characters read back; where they end it, its
checks follow at once (R123, R134). Both release QDE and the held post (R149): placed anew after a success or a
discard, but for a ZONE of the level just announced; folded into the entry that returns, a redundant ZONE
withdrawn. -/
def Obligations.TransmissionEnds : Prop :=
  ∀ s : State, s.pins.rstLow = false → QueueInv s →
    (s.qlc.inFlight = none → exec .transmitSuccess s = .next s ∧ exec .collision s = .next s) ∧
    ∀ k e, s.qlc.inFlight = some k → s.entryOf k = some e →
      ∃ t u, exec .transmitSuccess s = .next t ∧
        ((∀ r, u.qlc.rx = some r → frameWhole r.chars = false) → exec .collision s = .next u) ∧
        (∀ r, u.qlc.rx = some r → frameWhole r.chars = true →
          exec .collision s = .next (u.endFrame r)) ∧
        t = { s with zev := t.zev, nq := t.nq, qlc := t.qlc, raised := t.raised } ∧
        t.qlc = { s.qlc with
          idleIn := 100, qde := false, inFlight := none, frame := [], ownRead := none
          rotation := (s.qlc.rotation + 1) % 32 } ∧
        t.nq.held = none ∧ t.zev.received = s.zev.received ∧
        (s.nq.held = none → t.nq.entries = s.nq.entries.filter fun x => decide (x.key ≠ k)) ∧
        (∀ h, s.nq.held = some h → (s.scs.station = .joining → h.notice = .presence) →
          (∀ x, x.key ≠ k → (x ∈ t.nq.entries ↔ x ∈ s.nq.entries)) ∧
          ((∀ z l, h.notice = .zone z l → t.announced z ≠ some l) → t.entryOf k = some h) ∧
          (∀ z l, h.notice = .zone z l → t.announced z = some l → t.entryOf k = none)) ∧
        (∀ z l, e.notice = .zone z l → t.zev.zones = s.zev.zones.map fun x =>
          if x.zone = z then { x with announced := l } else x) ∧
        ((∀ z, k ≠ .zone z) → t.zev = s.zev) ∧
        u.qlc.qde = false ∧ u.qlc.inFlight = none ∧ u.qlc.rotation = s.qlc.rotation ∧
        (∀ r, s.qlc.ownRead = some r → u.qlc.rx = some r) ∧
        (s.qlc.ownRead = none → u.qlc.rx = s.qlc.rx) ∧
        u.zev = s.zev ∧ u.tracks = s.tracks ∧ u.prt = s.prt ∧ u.nq.held = none ∧
        (e.attempts < 5 → u.scs = s.scs ∧
          (s.nq.held = none → u.nq.entries = s.nq.entries.map fun x =>
            if x.key = k then { x with attempts := x.attempts + 1, inFlight := false } else x) ∧
          (∀ h, s.nq.held = some h → (s.scs.station = .joining → h.notice = .presence) →
            let y := foldNotice { e with attempts := e.attempts + 1, inFlight := false } h.notice h.cls
            (∀ x, x.key ≠ k → (x ∈ u.nq.entries ↔ x ∈ s.nq.entries)) ∧
            ((∀ z l, y.notice = .zone z l → s.announced z ≠ some l) → u.entryOf k = some y) ∧
            (∀ z l, y.notice = .zone z l → s.announced z = some l → u.entryOf k = none))) ∧
        (e.attempts = 5 → u.scs.faults.lineTrouble = true ∧ u.scs.quietEpoch = false ∧
          (s.nq.held = none → k ≠ .presence → u.entryOf k = none) ∧
          (∀ h, s.nq.held = some h → (s.scs.station = .joining → h.notice = .presence) →
            u.entryOf k = some h))

/-! ### Roster and common time -/

/-- R160, R161, R165: a PRESENCE of a listed peer makes its roster entry PRESENT or MISMATCH by the table
checksum, heard now with the silence deadline three epochs on, with the fields announced; its offset is
collected, in place of one before, when the entry is PRESENT and the station takes part. R105: then each
pair of its zone list that names a described zone of the sender which is a mirror source is the report of
that zone, with its LOST mark, and a changed report raises an evaluation; other records stay. -/
def Obligations.PresenceTaken : Prop :=
  ∀ (s : State) (r : RxFrame) (brought : List Byte) (sender : Nat)
    (stamp : Time) (a : Announced),
    FrameArrives s r brought (frameBytes .presence sender stamp (announcedBytes a)) →
    RosterOk s → stationPresent s.tables sender = true → sender ≠ s.scs.own → AnnouncedInRange a →
    ∃ t, exec (.frameReceived brought) s = .next t ∧
      t.rosterOf sender = some
        { state := if a.checksum = s.scs.checksum then .present else .mismatch
          lastHeard := s.prt.time
          deadline := some (s.prt.time + 24000)
          announced := some a } ∧
      (∀ n, n ≠ sender → t.rosterOf n = s.rosterOf n) ∧
      t.prt = { s.prt with roster := t.prt.roster, offsets := t.prt.offsets } ∧
      (a.checksum = s.scs.checksum → s.active = true →
        t.prt.offsets = (s.prt.offsets.filter fun o => decide (o.station ≠ sender)) ++
          [{ station := sender, offset := (stamp - r.arrival).toInt, lock := a.lock }]) ∧
      (a.checksum ≠ s.scs.checksum ∨ s.active = false → t.prt.offsets = s.prt.offsets) ∧
      t.tracks = s.tracks ∧ t.nq = s.nq ∧ t.scs = s.scs ∧ t.zev.zones = s.zev.zones ∧
      t.qlc = s.qlc.afterFrame ∧
      (a.checksum ≠ s.scs.checksum ∨ s.active = false → t.zev = s.zev) ∧
      (∀ z, (∀ p ∈ a.pairs, p.zone = z →
          zoneDescribed s.tables z = false ∨ (zoneRec s.tables z).owner ≠ sender) →
        t.receivedOf z = s.receivedOf z) ∧
      (a.checksum = s.scs.checksum → s.active = true → (a.pairs.map (·.zone)).Nodup →
        ∀ p ∈ a.pairs, ∀ old, zoneDescribed s.tables p.zone = true →
          (zoneRec s.tables p.zone).owner = sender → s.receivedOf p.zone = some old →
          t.receivedOf p.zone = some
            { zone := p.zone, received := true, level := p.level, lostMark := p.lostMark
              receipt := s.prt.time } ∧
          (p.level ≠ old.level ∨ p.lostMark ≠ old.lostMark → .evaluation ∈ t.raised))

/-- R162, R163: the silence deadline of a PRESENT or MISMATCH entry passes: SILENT, the deadline absent,
and an evaluation raised exactly when the station owns a mirror source. Not passed, nothing changes but the
waiting event, which is taken: that is the model's reading of a deadline command sent early (log 6). -/
def Obligations.SilenceTaken : Prop :=
  ∀ (s : State) (n : Nat) (e : RosterEntry), s.pins.rstLow = false → s.rosterOf n = some e →
    let r := (s.takeEvent fun x => decide (x = .silenceDeadline n)).raised
    (∀ d, e.state = .present ∨ e.state = .mismatch → e.deadline = some d →
      reached s.prt.time d = true →
      ∃ t, exec (.silenceDeadline n) s = .next t ∧
        t.rosterOf n = some { e with state := .silent, deadline := none } ∧
        (∀ k, k ≠ n → t.rosterOf k = s.rosterOf k) ∧
        t = { s with
          prt := { s.prt with roster := t.prt.roster }
          raised := if s.ownsSource n then r ++ [.evaluation] else r }) ∧
    ((∀ d, e.deadline = some d → reached s.prt.time d = false) →
      exec (.silenceDeadline n) s = .next { s with raised := r })

/-- R166–R170, R184: an epoch boundary empties the offset set. With no offsets the lock is FREE; else the
correction is recorded, stepped when the station is JOINING and it exceeds 250, otherwise slewed with the
trim adjusted, and the lock follows its count. The second boundary in JOINING enters OPERATING. R86, R103,
R172: in the claim of a step every running hold and LOST deadline starts again from the stepped time, absent
ones stay absent, and the step's tick, and after it a schedule point passed or reached, go before any event
that waits (log 4); every fade, close and silence deadline that the stepped time has reached passes just
after the claim, in the same step, and without a step none does (R75, R162). R118: at the entry into
OPERATING a ZONE notice is posted for each zone above CLEAR. R169, R187: TIME_RAIL is set when the trim
comes to its rail. R189: the health arm is set from the quiet-epoch mark, and the mark from the four
conditions. -/
def Obligations.EpochBoundarySettles : Prop :=
  ∀ s : State, s.pins.rstLow = false →
    ∃ t, exec .epochBoundary s = .next t ∧ t.prt.offsets = [] ∧ t.tables = s.tables ∧
      (t.prt.time = s.prt.time → t.tracks = s.tracks ∧ t.prt.roster = s.prt.roster) ∧
      (t.prt.time ≠ s.prt.time →
        DeadlinesPassed s t ∧ ∃ l, t.raised = l ++ passedEvents s t.prt.time) ∧
      (correction s.prt.offsets = none ↔ s.prt.offsets = []) ∧
      (s.prt.offsets = [] → t.prt = { s.prt with lock := .free, lockCount := 0 }) ∧
      (∀ c, correction s.prt.offsets = some c → t.prt.lastCorr = some c ∧
        t.prt.lockCount = (if c.natAbs ≤ 4 then min (s.prt.lockCount + 1) 3 else 0) ∧
        t.prt.lock = (if t.prt.lockCount = 3 then .locked else .pulling) ∧
        (s.scs.station = .joining → 250 < c.natAbs →
          t.prt.time = s.prt.time + BitVec.ofInt 32 c ∧ t.prt.trim = s.prt.trim ∧
          t.prt.slew = s.prt.slew ∧ t.zev.received = s.zev.received ∧
          t.zev.zones = (s.zev.zones.map fun z =>
            let d := t.prt.time + seconds (zoneRec s.tables z.zone).holdTime
            { z with hold := z.hold.map fun _ => d, lostDeadline := z.lostDeadline.map fun _ => d }) ∧
          (∃ l, t.raised = .tick :: l) ∧
          (0 < c ∧ untilSchedule s.scs.own s.prt.time ≤ c.natAbs ∨
              t.prt.time.toNat % 8000 = s.scs.own * 200 →
            ∃ l, t.raised = .tick :: .schedulePoint :: l)) ∧
        (s.scs.station ≠ .joining ∨ c.natAbs ≤ 250 →
          t.prt.time = s.prt.time ∧ t.prt.slew = max (-8) (min 8 c) ∧ t.zev = s.zev ∧
          t.prt.trim = (if 2 < c ∧ s.prt.trim < 64 then s.prt.trim + 1
            else if c < -2 ∧ -64 < s.prt.trim then s.prt.trim - 1 else s.prt.trim))) ∧
      (s.scs.station = .joining → s.scs.joining = 0 →
        t.scs.station = .joining ∧ t.scs.joining = 1) ∧
      (s.scs.station = .joining → s.scs.joining = 1 → t.scs.station = .operating ∧
        (QueueInv s → (s.zev.zones.map (·.zone)).Nodup → s.zev.zones.length ≤ 4 →
          s.nq.entries.length ≤ 3 → (∀ e ∈ s.nq.entries, e.key = .presence) →
          ∀ z ∈ s.zev.zones,
            (z.level = .clear → t.entryOf (.zone z.zone) = none) ∧
            (z.level ≠ .clear → ∃ e ∈ t.nq.entries, e.notice = .zone z.zone z.level ∧
              e.cls = (if z.level = .alarm then 0 else 2) ∧ e.postTime = t.prt.time))) ∧
      (s.scs.station ≠ .joining → t.scs.station = s.scs.station) ∧
      (s.prt.timeRail = true ∨ t.prt.timeRail = false → t.scs.faults = s.scs.faults ∧
        t.scs.healthArm = (s.scs.healthArm || s.scs.quietEpoch)) ∧
      (s.prt.timeRail = false → t.prt.timeRail = true →
        t.scs.faults = s.scs.faults.set .timeRail ∧
        t.scs.healthArm = (s.scs.healthArm && s.scs.faults.timeRail)) ∧
      (t.scs.quietEpoch = true ↔ ¬(s.sfe.silentRun = 2400 ∨
        8 ≤ s.sfe.vaneRecord.countP id ∨ s.sfe.lampLow = 20 ∨
        t.prt.trim = 64 ∨ t.prt.trim = -64))

/-- R164, R168, R169: a step of a positive slew or trim gains one count at once, one of a negative slew or
trim withholds a count, and a slew shrinks by one; with no slew or no trim nothing is done. With RST high a
gained count raises the tick, epoch boundary and schedule point that it reaches (R86, R166, R172), and every
fade, close and silence deadline that it reaches passes just after it, in the same step (R75, R162). That the
model keeps the withheld count until the millisecond ends is its own (log 7), and that slew and trim are taken
while RST is held low too is its choice (log 8). -/
def Obligations.CorrectionsSpent : Prop :=
  ∀ s : State,
    ∃ t u, exec .slewStep s = .next t ∧ exec .trimStep s = .next u ∧
      t = { s with prt := t.prt, tracks := t.tracks, raised := t.raised } ∧
      u = { s with prt := u.prt, tracks := u.tracks, raised := u.raised } ∧
      (0 < s.prt.slew → CountTaken s t ∧ t.prt = { s.prt with
        time := s.prt.time + 1, slew := s.prt.slew - 1, slewPhase := 0, roster := t.prt.roster }) ∧
      (s.prt.slew < 0 → t = { s with prt := { s.prt with
        withheld := s.prt.withheld + 1, slew := s.prt.slew + 1, slewPhase := 0 } }) ∧
      (s.prt.slew = 0 → t = s) ∧
      (0 < s.prt.trim → CountTaken s u ∧ u.prt = { s.prt with
        time := s.prt.time + 1, trimPhase := 0, roster := u.prt.roster }) ∧
      (s.prt.trim < 0 → u = { s with prt := { s.prt with
        withheld := s.prt.withheld + 1, trimPhase := 0 } }) ∧
      (s.prt.trim = 0 → u = s)

/-! ### Invariants -/

/-- R1, R176, R179, R180, R183: whatever the step, tables, store and page buffer keep their extent, the
selection stays inside a page, a valid store holds the checksum of its pages, and the station in JOINING
or OPERATING works with exactly the tables it has stored. -/
def Obligations.TablesStay : Prop :=
  ∀ s s' : State, TablesInv s → step s = .next s' → TablesInv s'

/-- R122–R127, R143, R144, R149: whatever the step, the queue holds at most 8 entries, one for a key, in
urgency order; at most one is in flight and it is the one being sent; a holdoff runs only on an IDLE
line; a station that takes no part sends nothing (log 13: the serial numbers of posts and the count of
steps). R123, R134: no frame is being read on an IDLE line or while this station drives it (log 12); no record holds a
whole frame, which is checked in the step in which it ends (log 11). Post times are in order too as long as they
lie within 2^31 ms of each other, where the comparison of times is an order. -/
def Obligations.QueueStays : Prop :=
  ∀ s s' : State, QueueInv s → step s = .next s' → QueueInv s' ∧ (ReceiveOk s → ReceiveOk s') ∧
    (FramesOpen s → FramesOpen s') ∧
    ∀ base, PostedAfter base s → PostedAfter base s' → InUrgencyOrder s.nq.entries →
      InUrgencyOrder s'.nq.entries

/-- R59–R62, R70, R76: whatever the step, the 16 slots hold no id twice, and every track has 1 to 6
sightings of distinct stations, with its derived fields following them. -/
def Obligations.TracksStay : Prop :=
  ∀ s s' : State, TracksInv s → step s = .next s' → TracksInv s'

/-- R20–R36, R99–R112, R158–R170: whatever the step, counters, windows, trim, slew, lock and roster keep
their ranges, and the zone states keep their order, their deadlines and their acknowledgements. -/
def Obligations.BlocksStay : Prop :=
  ∀ s s' : State, TimeInv s → SensorInv s → ZonesInv s → step s = .next s' →
    TimeInv s' ∧ SensorInv s' ∧ ZonesInv s'

/-- The state right after power-on with a blank store (log 1) meets every invariant. -/
def Obligations.ResetMeetsInvariants : Prop :=
  TablesInv State.reset ∧ QueueInv State.reset ∧ ReceiveOk State.reset ∧ FramesOpen State.reset ∧
    TracksInv State.reset ∧ TimeInv State.reset ∧ SensorInv State.reset ∧ ZonesInv State.reset
end

