-- ==== Sys2Proof/Laws/State.lean ====
section
/-! SUPPORT. One lemma for each field and each named update of the state, true by definition, so that
no proof unfolds a record update; and the equations of the updates built from them. -/

namespace Sys2Proof.Machine

section mapSfe
variable (s : State) (f : Sfe → Sfe)

@[simp] theorem State.mapSfe_pins : (s.mapSfe f).pins = s.pins := rfl
@[simp] theorem State.mapSfe_tables : (s.mapSfe f).tables = s.tables := rfl
@[simp] theorem State.mapSfe_store : (s.mapSfe f).store = s.store := rfl
@[simp] theorem State.mapSfe_sfe : (s.mapSfe f).sfe = f s.sfe := rfl
@[simp] theorem State.mapSfe_gdu : (s.mapSfe f).gdu = s.gdu := rfl
@[simp] theorem State.mapSfe_tracks : (s.mapSfe f).tracks = s.tracks := rfl
@[simp] theorem State.mapSfe_zev : (s.mapSfe f).zev = s.zev := rfl
@[simp] theorem State.mapSfe_nq : (s.mapSfe f).nq = s.nq := rfl
@[simp] theorem State.mapSfe_qlc : (s.mapSfe f).qlc = s.qlc := rfl
@[simp] theorem State.mapSfe_prt : (s.mapSfe f).prt = s.prt := rfl
@[simp] theorem State.mapSfe_scs : (s.mapSfe f).scs = s.scs := rfl
@[simp] theorem State.mapSfe_raised : (s.mapSfe f).raised = s.raised := rfl
@[simp] theorem State.mapSfe_pending : (s.mapSfe f).pending = s.pending := rfl
@[simp] theorem State.mapSfe_mapSfe (g : Sfe → Sfe) : (s.mapSfe f).mapSfe g = s.mapSfe fun x => g (f x) := rfl

end mapSfe

section mapGdu
variable (s : State) (f : Gdu → Gdu)

@[simp] theorem State.mapGdu_pins : (s.mapGdu f).pins = s.pins := rfl
@[simp] theorem State.mapGdu_tables : (s.mapGdu f).tables = s.tables := rfl
@[simp] theorem State.mapGdu_store : (s.mapGdu f).store = s.store := rfl
@[simp] theorem State.mapGdu_sfe : (s.mapGdu f).sfe = s.sfe := rfl
@[simp] theorem State.mapGdu_gdu : (s.mapGdu f).gdu = f s.gdu := rfl
@[simp] theorem State.mapGdu_tracks : (s.mapGdu f).tracks = s.tracks := rfl
@[simp] theorem State.mapGdu_zev : (s.mapGdu f).zev = s.zev := rfl
@[simp] theorem State.mapGdu_nq : (s.mapGdu f).nq = s.nq := rfl
@[simp] theorem State.mapGdu_qlc : (s.mapGdu f).qlc = s.qlc := rfl
@[simp] theorem State.mapGdu_prt : (s.mapGdu f).prt = s.prt := rfl
@[simp] theorem State.mapGdu_scs : (s.mapGdu f).scs = s.scs := rfl
@[simp] theorem State.mapGdu_raised : (s.mapGdu f).raised = s.raised := rfl
@[simp] theorem State.mapGdu_pending : (s.mapGdu f).pending = s.pending := rfl
@[simp] theorem State.mapGdu_mapGdu (g : Gdu → Gdu) : (s.mapGdu f).mapGdu g = s.mapGdu fun x => g (f x) := rfl

end mapGdu

section mapZev
variable (s : State) (f : Zev → Zev)

@[simp] theorem State.mapZev_pins : (s.mapZev f).pins = s.pins := rfl
@[simp] theorem State.mapZev_tables : (s.mapZev f).tables = s.tables := rfl
@[simp] theorem State.mapZev_store : (s.mapZev f).store = s.store := rfl
@[simp] theorem State.mapZev_sfe : (s.mapZev f).sfe = s.sfe := rfl
@[simp] theorem State.mapZev_gdu : (s.mapZev f).gdu = s.gdu := rfl
@[simp] theorem State.mapZev_tracks : (s.mapZev f).tracks = s.tracks := rfl
@[simp] theorem State.mapZev_zev : (s.mapZev f).zev = f s.zev := rfl
@[simp] theorem State.mapZev_nq : (s.mapZev f).nq = s.nq := rfl
@[simp] theorem State.mapZev_qlc : (s.mapZev f).qlc = s.qlc := rfl
@[simp] theorem State.mapZev_prt : (s.mapZev f).prt = s.prt := rfl
@[simp] theorem State.mapZev_scs : (s.mapZev f).scs = s.scs := rfl
@[simp] theorem State.mapZev_raised : (s.mapZev f).raised = s.raised := rfl
@[simp] theorem State.mapZev_pending : (s.mapZev f).pending = s.pending := rfl
@[simp] theorem State.mapZev_mapZev (g : Zev → Zev) : (s.mapZev f).mapZev g = s.mapZev fun x => g (f x) := rfl

end mapZev

section mapNq
variable (s : State) (f : Nq → Nq)

@[simp] theorem State.mapNq_pins : (s.mapNq f).pins = s.pins := rfl
@[simp] theorem State.mapNq_tables : (s.mapNq f).tables = s.tables := rfl
@[simp] theorem State.mapNq_store : (s.mapNq f).store = s.store := rfl
@[simp] theorem State.mapNq_sfe : (s.mapNq f).sfe = s.sfe := rfl
@[simp] theorem State.mapNq_gdu : (s.mapNq f).gdu = s.gdu := rfl
@[simp] theorem State.mapNq_tracks : (s.mapNq f).tracks = s.tracks := rfl
@[simp] theorem State.mapNq_zev : (s.mapNq f).zev = s.zev := rfl
@[simp] theorem State.mapNq_nq : (s.mapNq f).nq = f s.nq := rfl
@[simp] theorem State.mapNq_qlc : (s.mapNq f).qlc = s.qlc := rfl
@[simp] theorem State.mapNq_prt : (s.mapNq f).prt = s.prt := rfl
@[simp] theorem State.mapNq_scs : (s.mapNq f).scs = s.scs := rfl
@[simp] theorem State.mapNq_raised : (s.mapNq f).raised = s.raised := rfl
@[simp] theorem State.mapNq_pending : (s.mapNq f).pending = s.pending := rfl
@[simp] theorem State.mapNq_mapNq (g : Nq → Nq) : (s.mapNq f).mapNq g = s.mapNq fun x => g (f x) := rfl

end mapNq

section mapQlc
variable (s : State) (f : Qlc → Qlc)

@[simp] theorem State.mapQlc_pins : (s.mapQlc f).pins = s.pins := rfl
@[simp] theorem State.mapQlc_tables : (s.mapQlc f).tables = s.tables := rfl
@[simp] theorem State.mapQlc_store : (s.mapQlc f).store = s.store := rfl
@[simp] theorem State.mapQlc_sfe : (s.mapQlc f).sfe = s.sfe := rfl
@[simp] theorem State.mapQlc_gdu : (s.mapQlc f).gdu = s.gdu := rfl
@[simp] theorem State.mapQlc_tracks : (s.mapQlc f).tracks = s.tracks := rfl
@[simp] theorem State.mapQlc_zev : (s.mapQlc f).zev = s.zev := rfl
@[simp] theorem State.mapQlc_nq : (s.mapQlc f).nq = s.nq := rfl
@[simp] theorem State.mapQlc_qlc : (s.mapQlc f).qlc = f s.qlc := rfl
@[simp] theorem State.mapQlc_prt : (s.mapQlc f).prt = s.prt := rfl
@[simp] theorem State.mapQlc_scs : (s.mapQlc f).scs = s.scs := rfl
@[simp] theorem State.mapQlc_raised : (s.mapQlc f).raised = s.raised := rfl
@[simp] theorem State.mapQlc_pending : (s.mapQlc f).pending = s.pending := rfl
@[simp] theorem State.mapQlc_mapQlc (g : Qlc → Qlc) : (s.mapQlc f).mapQlc g = s.mapQlc fun x => g (f x) := rfl

end mapQlc

section mapPrt
variable (s : State) (f : Prt → Prt)

@[simp] theorem State.mapPrt_pins : (s.mapPrt f).pins = s.pins := rfl
@[simp] theorem State.mapPrt_tables : (s.mapPrt f).tables = s.tables := rfl
@[simp] theorem State.mapPrt_store : (s.mapPrt f).store = s.store := rfl
@[simp] theorem State.mapPrt_sfe : (s.mapPrt f).sfe = s.sfe := rfl
@[simp] theorem State.mapPrt_gdu : (s.mapPrt f).gdu = s.gdu := rfl
@[simp] theorem State.mapPrt_tracks : (s.mapPrt f).tracks = s.tracks := rfl
@[simp] theorem State.mapPrt_zev : (s.mapPrt f).zev = s.zev := rfl
@[simp] theorem State.mapPrt_nq : (s.mapPrt f).nq = s.nq := rfl
@[simp] theorem State.mapPrt_qlc : (s.mapPrt f).qlc = s.qlc := rfl
@[simp] theorem State.mapPrt_prt : (s.mapPrt f).prt = f s.prt := rfl
@[simp] theorem State.mapPrt_scs : (s.mapPrt f).scs = s.scs := rfl
@[simp] theorem State.mapPrt_raised : (s.mapPrt f).raised = s.raised := rfl
@[simp] theorem State.mapPrt_pending : (s.mapPrt f).pending = s.pending := rfl
@[simp] theorem State.mapPrt_mapPrt (g : Prt → Prt) : (s.mapPrt f).mapPrt g = s.mapPrt fun x => g (f x) := rfl

end mapPrt

section mapScs
variable (s : State) (f : Scs → Scs)

@[simp] theorem State.mapScs_pins : (s.mapScs f).pins = s.pins := rfl
@[simp] theorem State.mapScs_tables : (s.mapScs f).tables = s.tables := rfl
@[simp] theorem State.mapScs_store : (s.mapScs f).store = s.store := rfl
@[simp] theorem State.mapScs_sfe : (s.mapScs f).sfe = s.sfe := rfl
@[simp] theorem State.mapScs_gdu : (s.mapScs f).gdu = s.gdu := rfl
@[simp] theorem State.mapScs_tracks : (s.mapScs f).tracks = s.tracks := rfl
@[simp] theorem State.mapScs_zev : (s.mapScs f).zev = s.zev := rfl
@[simp] theorem State.mapScs_nq : (s.mapScs f).nq = s.nq := rfl
@[simp] theorem State.mapScs_qlc : (s.mapScs f).qlc = s.qlc := rfl
@[simp] theorem State.mapScs_prt : (s.mapScs f).prt = s.prt := rfl
@[simp] theorem State.mapScs_scs : (s.mapScs f).scs = f s.scs := rfl
@[simp] theorem State.mapScs_raised : (s.mapScs f).raised = s.raised := rfl
@[simp] theorem State.mapScs_pending : (s.mapScs f).pending = s.pending := rfl
@[simp] theorem State.mapScs_mapScs (g : Scs → Scs) : (s.mapScs f).mapScs g = s.mapScs fun x => g (f x) := rfl

end mapScs

section setTracks
variable (s : State) (l : List (Option Track))

@[simp] theorem State.setTracks_pins : (s.setTracks l).pins = s.pins := rfl
@[simp] theorem State.setTracks_tables : (s.setTracks l).tables = s.tables := rfl
@[simp] theorem State.setTracks_store : (s.setTracks l).store = s.store := rfl
@[simp] theorem State.setTracks_sfe : (s.setTracks l).sfe = s.sfe := rfl
@[simp] theorem State.setTracks_gdu : (s.setTracks l).gdu = s.gdu := rfl
@[simp] theorem State.setTracks_tracks : (s.setTracks l).tracks = l := rfl
@[simp] theorem State.setTracks_zev : (s.setTracks l).zev = s.zev := rfl
@[simp] theorem State.setTracks_nq : (s.setTracks l).nq = s.nq := rfl
@[simp] theorem State.setTracks_qlc : (s.setTracks l).qlc = s.qlc := rfl
@[simp] theorem State.setTracks_prt : (s.setTracks l).prt = s.prt := rfl
@[simp] theorem State.setTracks_scs : (s.setTracks l).scs = s.scs := rfl
@[simp] theorem State.setTracks_raised : (s.setTracks l).raised = s.raised := rfl
@[simp] theorem State.setTracks_pending : (s.setTracks l).pending = s.pending := rfl

end setTracks

section raise
variable (s : State) (e : Instr)

@[simp] theorem State.raise_pins : (s.raise e).pins = s.pins := rfl
@[simp] theorem State.raise_tables : (s.raise e).tables = s.tables := rfl
@[simp] theorem State.raise_store : (s.raise e).store = s.store := rfl
@[simp] theorem State.raise_sfe : (s.raise e).sfe = s.sfe := rfl
@[simp] theorem State.raise_gdu : (s.raise e).gdu = s.gdu := rfl
@[simp] theorem State.raise_tracks : (s.raise e).tracks = s.tracks := rfl
@[simp] theorem State.raise_zev : (s.raise e).zev = s.zev := rfl
@[simp] theorem State.raise_nq : (s.raise e).nq = s.nq := rfl
@[simp] theorem State.raise_qlc : (s.raise e).qlc = s.qlc := rfl
@[simp] theorem State.raise_prt : (s.raise e).prt = s.prt := rfl
@[simp] theorem State.raise_scs : (s.raise e).scs = s.scs := rfl
@[simp] theorem State.raise_raised : (s.raise e).raised = s.raised ++ [e] := rfl
@[simp] theorem State.raise_pending : (s.raise e).pending = s.pending := rfl

end raise

section takeEvent
variable (s : State) (p : Instr → Bool)

@[simp] theorem State.takeEvent_pins : (s.takeEvent p).pins = s.pins := rfl
@[simp] theorem State.takeEvent_tables : (s.takeEvent p).tables = s.tables := rfl
@[simp] theorem State.takeEvent_store : (s.takeEvent p).store = s.store := rfl
@[simp] theorem State.takeEvent_sfe : (s.takeEvent p).sfe = s.sfe := rfl
@[simp] theorem State.takeEvent_gdu : (s.takeEvent p).gdu = s.gdu := rfl
@[simp] theorem State.takeEvent_tracks : (s.takeEvent p).tracks = s.tracks := rfl
@[simp] theorem State.takeEvent_zev : (s.takeEvent p).zev = s.zev := rfl
@[simp] theorem State.takeEvent_nq : (s.takeEvent p).nq = s.nq := rfl
@[simp] theorem State.takeEvent_qlc : (s.takeEvent p).qlc = s.qlc := rfl
@[simp] theorem State.takeEvent_prt : (s.takeEvent p).prt = s.prt := rfl
@[simp] theorem State.takeEvent_scs : (s.takeEvent p).scs = s.scs := rfl
@[simp] theorem State.takeEvent_raised : (s.takeEvent p).raised = s.raised.eraseP p := rfl
@[simp] theorem State.takeEvent_pending : (s.takeEvent p).pending = s.pending := rfl

end takeEvent

section dropEvents
variable (s : State) (p : Instr → Bool)

@[simp] theorem State.dropEvents_pins : (s.dropEvents p).pins = s.pins := rfl
@[simp] theorem State.dropEvents_tables : (s.dropEvents p).tables = s.tables := rfl
@[simp] theorem State.dropEvents_store : (s.dropEvents p).store = s.store := rfl
@[simp] theorem State.dropEvents_sfe : (s.dropEvents p).sfe = s.sfe := rfl
@[simp] theorem State.dropEvents_gdu : (s.dropEvents p).gdu = s.gdu := rfl
@[simp] theorem State.dropEvents_tracks : (s.dropEvents p).tracks = s.tracks := rfl
@[simp] theorem State.dropEvents_zev : (s.dropEvents p).zev = s.zev := rfl
@[simp] theorem State.dropEvents_nq : (s.dropEvents p).nq = s.nq := rfl
@[simp] theorem State.dropEvents_qlc : (s.dropEvents p).qlc = s.qlc := rfl
@[simp] theorem State.dropEvents_prt : (s.dropEvents p).prt = s.prt := rfl
@[simp] theorem State.dropEvents_scs : (s.dropEvents p).scs = s.scs := rfl
@[simp] theorem State.dropEvents_raised : (s.dropEvents p).raised = s.raised.filter fun e => !p e := rfl
@[simp] theorem State.dropEvents_pending : (s.dropEvents p).pending = s.pending := rfl

end dropEvents

/-! ### Updates built from the named ones -/

section built
variable (s : State)

@[simp] theorem State.now_eq : s.now = s.prt.time := rfl
@[simp] theorem State.setEntries_eq (es : List Entry) :
    s.setEntries es = s.mapNq fun q => { q with entries := es } := rfl
@[simp] theorem State.setMode_eq (m : Mode) : s.setMode m = s.mapGdu fun g => { g with mode := m } := rfl
@[simp] theorem State.setResult_eq (r : CmdResult) :
    s.setResult r = s.mapScs fun c => { c with result := r } := rfl
@[simp] theorem State.setError_eq (code : SetupError) (table entry : Nat) :
    s.setError code table entry =
      s.mapScs fun c => { c with setupError := code, errTable := table, errEntry := entry } := rfl
@[simp] theorem State.setProg_eq (p : Programming) :
    s.setProg p = s.mapScs fun c => { c with prog := some p } := rfl
@[simp] theorem State.setRoster_eq (n : Nat) (e : RosterEntry) :
    s.setRoster n e = s.mapPrt fun p => { p with roster := p.roster.set (n - 1) e } := rfl
@[simp] theorem State.stopDriving_eq :
    s.stopDriving =
      s.mapQlc fun q =>
        { q with
          idleIn := q.idleAfterDriving, qde := false, inFlight := none, frame := [], ownRead := none } := rfl
@[simp] theorem State.charsRead_eq :
    s.charsRead = (s.mapQlc fun q => { q with idleIn := idleAfterStop }).dropEvents isLineIdle := rfl
@[simp] theorem State.sselSeenHigh_eq :
    s.sselSeenHigh = s.mapScs fun c => { c with sdout := none, sselSeen := true } := rfl
@[simp] theorem State.advanceRotation_eq :
    s.advanceRotation = s.mapQlc fun q => { q with rotation := (q.rotation + 1) % 32 } := rfl
@[simp] theorem State.reject_eq (cause : Nat) (frame : List Byte) :
    s.reject cause frame = s.mapQlc fun q =>
      { q with rejectCause := cause, rejectSender := frame.getD 2 0, rejectKind := frame.getD 0 0 } := rfl

end built

/-! ### RST (R176) -/

@[simp] theorem State.unlessHeld_high {s : State} (h : s.pins.rstLow = false) (f : State → State) :
    s.unlessHeld f = f s := by simp [State.unlessHeld, h]

@[simp] theorem State.unlessHeld_low {s : State} (h : s.pins.rstLow = true) (f : State → State) :
    s.unlessHeld f = s := by simp [State.unlessHeld, h]

/-- What holds of a state and of what `f` makes of it holds of the guarded claim. -/
theorem State.unlessHeld_cases {s : State} {f : State → State} {P : State → Prop} (h0 : P s)
    (h1 : s.pins.rstLow = false → P (f s)) : P (s.unlessHeld f) := by
  unfold State.unlessHeld
  cases h : s.pins.rstLow
  · exact h1 h
  · exact h0

/-! ### The setup port (R176, R178) -/

theorem State.portOpen_eq_true {s : State} :
    s.portOpen = true ↔ s.pins.rstLow = false ∧ s.scs.sselSeen = true := by
  simp [State.portOpen]

/-- Where the port is open RST is high. -/
theorem State.portOpen_high {s : State} (h : s.portOpen = true) : s.pins.rstLow = false :=
  (State.portOpen_eq_true.1 h).1

@[simp] theorem State.throughPort_open {s : State} (h : s.portOpen = true) (f : State → State) :
    s.throughPort f = f s := by simp [State.throughPort, h]

@[simp] theorem State.throughPort_closed {s : State} (h : s.portOpen = false) (f : State → State) :
    s.throughPort f = s := by simp [State.throughPort, h]

/-- What holds of a state and of what `f` makes of it holds of a transaction. -/
theorem State.throughPort_cases {s : State} {f : State → State} {P : State → Prop} (closed : P s)
    (taken : s.portOpen = true → P (f s)) : P (s.throughPort f) := by
  cases h : s.portOpen
  · simpa [h] using closed
  · simpa [h] using taken h

/-! ### Taking a command (R179) -/

/-- All that taking a command of the setup port can do. -/
theorem State.command_cases {s : State} {ok : StationState → Bool} {f : State → State}
    {P : State → Prop} (closed : P s) (refused : ∀ r, P (s.setResult r))
    (taken : s.portOpen = true → s.scs.busy = .clear → ok s.scs.station = true → P (f s)) :
    P (s.command ok f) := by
  refine State.throughPort_cases closed fun h => ?_
  by_cases hb : s.scs.busy = .clear
  · cases ho : ok s.scs.station
    · simpa [hb, ho] using refused _
    · simpa [hb, ho] using taken h hb ho
  · simpa [hb] using refused _

/-- A command in a state that accepts it, with no busy mark and the port open, has its effect. -/
theorem State.command_taken {s : State} {ok : StationState → Bool} {f : State → State}
    (h : s.portOpen = true) (hb : s.scs.busy = .clear) (ho : ok s.scs.station = true) :
    s.command ok f = f s := by
  simp [State.command, h, hb, ho]

end Sys2Proof.Machine
end

