-- ==== Sys2Proof/Laws/Deadlines.lean ====
section
/-! SUPPORT. What the passing of stored deadlines can do (R75, R162): slots, roster and evaluations, and nothing
else. -/

namespace Sys2Proof.Machine

@[simp] theorem passTracks_length (slots : List (Option Track)) (now : Time) (c : Nat) :
    (passTracks slots now c).length = slots.length := by
  simp [passTracks]

@[simp] theorem passTracks_getElem? (slots : List (Option Track)) (now : Time) (c k : Nat) :
    (passTracks slots now c)[k]? = slots[k]?.map fun o => o.bind fun t => (t.pass now c).1 := by
  simp [passTracks]

/-- A track whose deadlines are not reached stays as it is. -/
theorem Track.pass_of_not_due {t : Track} {now : Time} {c : Nat} (hf : t.fadeDue now = false)
    (hc : t.closeDue now = false) : t.pass now c = (some t, 0) := by
  simp [Track.pass, hf, hc]

/-- A track whose close deadline is reached is gone. -/
theorem Track.pass_of_closeDue {t : Track} {now : Time} {c : Nat} (hf : t.fadeDue now = false)
    (hc : t.closeDue now = true) : t.pass now c = (none, 1) := by
  simp [Track.pass, hf, hc]

/-- A track whose fade deadline is reached is FADING, unless its close deadline is reached at once. -/
theorem Track.pass_of_fadeDue {t : Track} {now : Time} {c : Nat} (hf : t.fadeDue now = true) :
    t.pass now c =
      if (t.faded now c).closeDue now then (none, 2) else (some (t.faded now c), 1) := by
  simp [Track.pass, hf]

/-- `t` differs from `s` at most in its slots, its roster and evaluations raised after all else. -/
def OnlyDeadlines (s t : State) : Prop :=
  ∃ n, t = { s with
    tracks := t.tracks, prt := { s.prt with roster := t.prt.roster }
    raised := s.raised ++ List.replicate n .evaluation }

theorem OnlyDeadlines.refl (s : State) : OnlyDeadlines s s := ⟨0, by simp⟩

theorem OnlyDeadlines.trans {s t u : State} (h : OnlyDeadlines s t) (k : OnlyDeadlines t u) :
    OnlyDeadlines s u := by
  obtain ⟨m, h⟩ := h
  obtain ⟨n, k⟩ := k
  refine ⟨m + n, ?_⟩
  rw [k, h]
  simp

theorem State.setRoster_only (s : State) (n : Nat) (e : RosterEntry) : OnlyDeadlines s (s.setRoster n e) :=
  ⟨0, by simp [State.setRoster, State.mapPrt]⟩

theorem State.rosterChanged_only (s : State) (n : Nat) : OnlyDeadlines s (s.rosterChanged n) := by
  unfold State.rosterChanged
  split
  · exact ⟨1, rfl⟩
  · exact .refl s

theorem State.writeRoster_only (s : State) (n : Nat) (old new : RosterEntry) :
    OnlyDeadlines s (s.writeRoster n old new) := by
  simp only [State.writeRoster]
  split
  · exact s.setRoster_only n new
  · exact (s.setRoster_only n new).trans (State.rosterChanged_only _ n)

theorem State.silence_only (s : State) (n : Nat) : OnlyDeadlines s (s.silence n) := by
  unfold State.silence
  split
  · exact .refl s
  · split
    · exact s.writeRoster_only n _ _
    · exact .refl s

theorem State.passDeadlines_only (s : State) : OnlyDeadlines s s.passDeadlines := by
  have hs : ∀ (l : List Nat) (u : State),
      OnlyDeadlines u (l.foldl (fun s k => s.silence (k + 1)) u) := by
    intro l
    induction l with
    | nil => exact OnlyDeadlines.refl
    | cons k l ih => exact fun u => (State.silence_only u (k + 1)).trans (ih _)
  exact OnlyDeadlines.trans ⟨_, rfl⟩ (hs _ s.passTrackDeadlines)

/-- A boundary that leaves common time as it found it passes no deadline. -/
theorem State.boundaryTaken_same {s : State} (h : s.epochBoundary.prt.time = s.prt.time) :
    s.boundaryTaken = s.epochBoundary := by
  simp [State.boundaryTaken, State.now, h]

/-- One that has stepped it passes those reached. -/
theorem State.boundaryTaken_stepped {s : State} (h : s.epochBoundary.prt.time ≠ s.prt.time) :
    s.boundaryTaken = s.epochBoundary.passDeadlines := by
  simp [State.boundaryTaken, State.now, h]

end Sys2Proof.Machine
end

