-- ==== Sys2Proof/Laws/Line.lean ====
section
/-! SUPPORT. What received characters and the line's IDLE do to the frame being read (R123, R133, R134): whole,
in part, truncated, or none. -/

namespace Sys2Proof.Machine

/-- A frame that the characters complete ends and is checked. -/
theorem State.readChars_whole {s : State} {r : RxFrame} {chars : List Byte}
    (h : frameWhole (r.chars ++ chars) = true) :
    s.readChars r chars = s.charsRead.endFrame { r with chars := r.chars ++ chars } := by
  simp [State.readChars, h]

/-- Characters that do not complete a frame are kept in its record. -/
theorem State.readChars_part {s : State} {r : RxFrame} {chars : List Byte}
    (h : frameWhole (r.chars ++ chars) = false) (hc : chars ≠ []) :
    s.readChars r chars =
      s.charsRead.mapQlc fun q => { q with rx := some { r with chars := r.chars ++ chars } } := by
  simp [State.readChars, h, hc]

/-- The characters are those of the frame being read. -/
theorem State.frameReceived_reading {s : State} {r : RxFrame} (h : s.qlc.rx = some r) (chars : List Byte) :
    s.frameReceived chars = s.readChars r chars := by
  simp [State.frameReceived, h]

/-- With no frame being read characters form none. -/
theorem State.frameReceived_none {s : State} (h : s.qlc.rx = none) (chars : List Byte) :
    s.frameReceived chars = s := by
  simp [State.frameReceived, h]

/-- A truncated frame fails check 1 (R136). -/
theorem checkOk_truncated {chars : List Byte} (h : frameWhole chars = false) :
    checkOk (frameChars chars) = false := by
  rw [Bool.eq_false_iff]
  intro hc
  simp only [frameWhole, decide_eq_false_iff_not] at h
  simp only [checkOk, Bool.and_eq_true, decide_eq_true_eq] at hc
  obtain ⟨⟨h7, hl⟩, -⟩ := hc
  have hb : byteAt (frameChars chars) 1 = byteAt chars 1 := by
    simp [byteAt, frameChars, List.getD_eq_getElem?_getD]
  rw [hb] at h7 hl
  simp only [frameChars, List.length_take] at hl
  omega

/-- A truncated frame is rejected with BAD_CHECK, and changes nothing else. -/
theorem State.endFrame_truncated {s : State} {r : RxFrame} (h : frameWhole r.chars = false) :
    s.endFrame r = (s.mapQlc fun q => { q with rx := none }).reject 1 (frameChars r.chars) := by
  simp [State.endFrame, State.receive, checkOk_truncated h]

/-- Without a frame being read the line's IDLE ends none. -/
theorem State.endTruncated_none {s : State} (h : s.qlc.rx = none) : s.endTruncated = s := by
  simp [State.endTruncated, h]

/-- The line's IDLE ends the frame being read. -/
theorem State.endTruncated_some {s : State} {r : RxFrame} (h : s.qlc.rx = some r) :
    s.endTruncated = s.endFrame r := by
  simp [State.endTruncated, h]

/-- A frame that a collision has left open is read on. -/
theorem State.endWhole_open {s : State} (h : ∀ r, s.qlc.rx = some r → frameWhole r.chars = false) :
    s.endWhole = s := by
  unfold State.endWhole
  split
  · rename_i r hr
    simp [h r hr]
  · rfl

end Sys2Proof.Machine
end

