-- ==== Sys2Proof/Laws/Lists.lean ====
section
/-! SUPPORT. The list operations of queue and tables, and admission: what an insertion places, that the
urgency order is strict, which slots a track takes, and all that one fade and one admission can change. -/

namespace Sys2Proof.Machine

/-! ### Queue entries (R144) -/

theorem insertEntry_perm (e : Entry) (es : List Entry) : (insertEntry e es).Perm (e :: es) := by
  induction es with
  | nil => rfl
  | cons x xs ih =>
    simp only [insertEntry]
    split
    · rfl
    · exact (ih.cons x).trans (.swap e x xs)

@[simp] theorem insertEntry_length (e : Entry) (es : List Entry) :
    (insertEntry e es).length = es.length + 1 := by
  simpa using (insertEntry_perm e es).length_eq

@[simp] theorem mem_insertEntry {e x : Entry} {es : List Entry} :
    x ∈ insertEntry e es ↔ x = e ∨ x ∈ es := by
  simpa using (insertEntry_perm e es).mem_iff (a := x)

/-- Two times do not come each before the other. -/
theorem earlier_asymm {a b : Time} (h : earlier a b = true) : earlier b a = false := by
  simp only [earlier, timeDiff, decide_eq_true_eq, decide_eq_false_iff_not, BitVec.toInt_eq_toNat_cond,
    BitVec.toNat_sub] at *
  omega

/-- Of times that lie within 2^31 ms after `base`, the earlier one is the one nearer to it. -/
theorem earlier_iff_of_base {base a b : Time} (ha : 0 ≤ timeDiff a base) (hb : 0 ≤ timeDiff b base) :
    earlier a b = true ↔ timeDiff a base < timeDiff b base := by
  simp only [earlier, timeDiff, decide_eq_true_eq, BitVec.toInt_eq_toNat_cond, BitVec.toNat_sub] at *
  omega

theorem Entry.before_irrefl (a : Entry) : a.before a = false := by
  simp [Entry.before, Entry.postedBefore, earlier, timeDiff]

theorem Entry.before_asymm {a b : Entry} (h : a.before b = true) : b.before a = false := by
  have hab := @earlier_asymm a.postTime b.postTime
  have hba := @earlier_asymm b.postTime a.postTime
  simp only [Entry.before, Entry.postedBefore, Bool.or_eq_true, Bool.and_eq_true, decide_eq_true_eq,
    Bool.not_eq_true', Bool.or_eq_false_iff, Bool.and_eq_false_iff, decide_eq_false_iff_not,
    Bool.not_eq_false'] at *
  grind

/-- Two entries posted by different posts stand one before the other. -/
theorem Entry.before_total {a b : Entry} (h : a.order ≠ b.order) :
    a.before b = true ∨ b.before a = true := by
  simp only [Entry.before, Entry.postedBefore, Bool.or_eq_true, Bool.and_eq_true, decide_eq_true_eq,
    Bool.not_eq_true']
  cases earlier a.postTime b.postTime <;> cases earlier b.postTime a.postTime <;> simp <;> omega

/-- The order is transitive among entries whose post times lie within 2^31 ms after `base`. -/
theorem Entry.before_trans {base : Time} {a b c : Entry} (ha : 0 ≤ timeDiff a.postTime base)
    (hb : 0 ≤ timeDiff b.postTime base) (hc : 0 ≤ timeDiff c.postTime base)
    (h : a.before b = true) (k : b.before c = true) : a.before c = true := by
  simp only [Entry.before, Entry.postedBefore, Bool.or_eq_true, Bool.and_eq_true, decide_eq_true_eq,
    Bool.not_eq_true', Bool.eq_false_iff, ne_eq, earlier_iff_of_base ha hb, earlier_iff_of_base hb hc,
    earlier_iff_of_base ha hc, earlier_iff_of_base hb ha, earlier_iff_of_base hc hb,
    earlier_iff_of_base hc ha] at *
  omega

/-- An entry before another one is of no greater class, and within its class posted after no more steps. -/
theorem Entry.before_urgency {a b : Entry} (h : a.before b = true) :
    a.cls < b.cls ∨ (a.cls = b.cls ∧ a.steps ≤ b.steps) := by
  simp only [Entry.before, Bool.or_eq_true, Bool.and_eq_true, decide_eq_true_eq] at h
  omega

/-- An entry not before another one stands after it by class and steps. -/
theorem Entry.not_before_urgency {a b : Entry} (h : a.before b = false) :
    b.cls < a.cls ∨ (b.cls = a.cls ∧ b.steps ≤ a.steps) := by
  simp only [Entry.before, Bool.or_eq_false_iff, Bool.and_eq_false_iff, decide_eq_false_iff_not] at h
  omega

/-- R144: an entry placed in its place keeps the order by class and steps. -/
theorem insertEntry_urgency {es : List Entry} (h : UrgencyOrder es) (e : Entry) :
    UrgencyOrder (insertEntry e es) := by
  unfold UrgencyOrder at *
  induction es with
  | nil => simp [insertEntry]
  | cons x xs ih =>
    rw [List.pairwise_cons] at h
    simp only [insertEntry]
    split
    · rename_i hex
      have hex := Entry.before_urgency hex
      refine List.pairwise_cons.2 ⟨fun y hy => ?_, List.pairwise_cons.2 h⟩
      rcases List.mem_cons.1 hy with rfl | hy
      · exact hex
      · have := h.1 y hy
        omega
    · rename_i hex
      have hxe := Entry.not_before_urgency (Bool.eq_false_iff.2 hex)
      refine List.pairwise_cons.2 ⟨fun y hy => ?_, ih h.2⟩
      rcases mem_insertEntry.1 hy with rfl | hy
      · exact hxe
      · exact h.1 y hy

/-- R144: an entry of another post placed in its place keeps the urgency order, as long as all post times
lie within 2^31 ms after `base`. -/
theorem insertEntry_inOrder {base : Time} {e : Entry} {es : List Entry} (h : InUrgencyOrder es)
    (hne : ∀ x ∈ es, x.order ≠ e.order) (he : 0 ≤ timeDiff e.postTime base)
    (hes : ∀ x ∈ es, 0 ≤ timeDiff x.postTime base) : InUrgencyOrder (insertEntry e es) := by
  unfold InUrgencyOrder at *
  induction es with
  | nil => simp [insertEntry]
  | cons x xs ih =>
    rw [List.pairwise_cons] at h
    have hx := hes x (by simp)
    simp only [insertEntry]
    split
    · rename_i hex
      refine List.pairwise_cons.2 ⟨fun y hy => ?_, List.pairwise_cons.2 h⟩
      rcases List.mem_cons.1 hy with rfl | hy
      · exact hex
      · exact Entry.before_trans he hx (hes y (by simp [hy])) hex (h.1 y hy)
    · rename_i hex
      have hxe : x.before e = true := by
        rcases Entry.before_total (hne x (by simp)) with hb | hb
        · exact hb
        · exact absurd hb hex
      refine List.pairwise_cons.2 ⟨fun y hy => ?_,
        ih h.2 (fun y hy => hne y (by simp [hy])) fun y hy => hes y (by simp [hy])⟩
      rcases mem_insertEntry.1 hy with rfl | hy
      · exact hxe
      · exact h.1 y hy

/-- The key of a folded entry is the key it had, when the post was for that key. -/
theorem foldNotice_key {e : Entry} {n : Notice} (h : n.key = e.key) (cls : Nat) :
    (foldNotice e n cls).key = e.key := by
  obtain ⟨m, c, t, k, o, a, f⟩ := e
  cases m <;> cases n <;> simp only [Entry.key, Notice.key] at h <;> try cases h
  · rfl
  · rename_i p q
    obtain ⟨id, form, _⟩ := q
    cases form <;> simp_all [foldNotice, Entry.key, Notice.key]
  · rfl

@[simp] theorem foldNotice_order (e : Entry) (n : Notice) (cls : Nat) :
    (foldNotice e n cls).order = e.order := by
  unfold foldNotice
  split <;> try rfl
  split <;> rfl

@[simp] theorem foldNotice_attempts (e : Entry) (n : Notice) (cls : Nat) :
    (foldNotice e n cls).attempts = e.attempts := by
  unfold foldNotice
  split <;> try rfl
  split <;> rfl

@[simp] theorem foldNotice_inFlight (e : Entry) (n : Notice) (cls : Nat) :
    (foldNotice e n cls).inFlight = e.inFlight := by
  unfold foldNotice
  split <;> try rfl
  split <;> rfl

@[simp] theorem foldNotice_steps (e : Entry) (n : Notice) (cls : Nat) :
    (foldNotice e n cls).steps = e.steps := by
  unfold foldNotice
  split <;> try rfl
  split <;> rfl

@[simp] theorem foldNotice_postTime (e : Entry) (n : Notice) (cls : Nat) :
    (foldNotice e n cls).postTime = e.postTime := by
  unfold foldNotice
  split <;> try rfl
  split <;> rfl

/-! ### Sightings (R60, R70) -/

theorem insertSighting_perm (x : Sighting) (l : List Sighting) :
    (insertSighting x l).Perm (x :: l) := by
  induction l with
  | nil => rfl
  | cons y ys ih =>
    simp only [insertSighting]
    split
    · rfl
    · exact (ih.cons y).trans (.swap x y ys)

@[simp] theorem insertSighting_length (x : Sighting) (l : List Sighting) :
    (insertSighting x l).length = l.length + 1 := by
  simpa using (insertSighting_perm x l).length_eq

theorem overflow_sublist (l : List Sighting) : (overflow l).Sublist l := by
  unfold overflow
  split
  · exact List.eraseIdx_sublist l 1
  · exact List.Sublist.refl l

theorem overflow_length {l : List Sighting} (h : l.length ≤ 7) : (overflow l).length ≤ 6 := by
  unfold overflow
  split
  · rename_i hl
    rw [List.length_eraseIdx_of_lt (by simp only [Config.maxSightings] at hl; omega)]
    omega
  · rename_i hl
    simp only [Config.maxSightings] at hl
    omega

/-! ### Slots (R59, R76) -/

@[simp] theorem replaceTrack_length (slots : List (Option Track)) (id : TrackId) (t : Option Track) :
    (replaceTrack slots id t).length = slots.length := by
  simp [replaceTrack]

/-- R76: the slot taken is the lowest-numbered free one. -/
theorem fillFree_some {slots l : List (Option Track)} {t : Track} (h : fillFree slots t = some l) :
    ∃ (a : List Track) (b : List (Option Track)),
      slots = a.map some ++ none :: b ∧ l = a.map some ++ some t :: b := by
  induction slots generalizing l with
  | nil => simp [fillFree] at h
  | cons o rest ih =>
    cases o with
    | none =>
      simp only [fillFree, Option.some.injEq] at h
      exact ⟨[], rest, rfl, h.symm⟩
    | some x =>
      simp only [fillFree, Option.map_eq_some_iff] at h
      obtain ⟨l', hl, rfl⟩ := h
      obtain ⟨a, b, h1, h2⟩ := ih hl
      exact ⟨x :: a, b, by simp [h1], by simp [h2]⟩

theorem fillFree_none {slots : List (Option Track)} {t : Track} :
    fillFree slots t = none ↔ none ∉ slots := by
  induction slots with
  | nil => simp [fillFree]
  | cons o rest ih => cases o <;> simp [fillFree, ih]

/-! ### One fade and one admission (R63, R71, R73) -/

/-- All that a fade can do: nothing where no fade deadline of `id` has passed, else the track FADING with its
close deadline, and one table change raised. -/
theorem State.fadeTrack_cases (s : State) (id : TrackId) :
    ((∀ t, s.trackOf id = some t → t.fadeDue s.prt.time = false) ∧ s.fadeTrack id = s) ∨
    ∃ t, s.trackOf id = some t ∧ t.fadeDue s.prt.time = true ∧
      s.fadeTrack id = { s with
        tracks := replaceTrack s.tracks id (some { t with
          state := .fading, close := some (s.prt.time + seconds (site s.tables).closeTime) })
        raised := s.raised ++ [.evaluation] } := by
  unfold State.fadeTrack
  cases ht : s.trackOf id with
  | none => exact .inl ⟨by simp, rfl⟩
  | some t =>
    cases hd : t.fadeDue s.prt.time
    · exact .inl ⟨by simpa using hd, by simp [hd]⟩
    · exact .inr ⟨t, rfl, hd, by simp [hd, Track.faded, State.raise, State.setTracks]⟩

/-- All that an admission can do: nothing, or a change of the table with one table change raised, after
which an admitted peer NEW triggers the pre-check and a fade deadline already reached passes. -/
theorem State.admit_cases (s : State) (r : Request) (peer : Bool) :
    ((s.admission r peer).1 ≠ .admitted ∧ (s.admission r peer).2 = s) ∨
    ∃ l, (s.admission r peer).1 = .admitted ∧
      admitSlots s.tables s.tracks (s.trackOf r.id) r = (.admitted, l) ∧
      (s.admission r peer).2 = ({ s with
        tracks := l
        raised := s.raised ++
          (if peer = true ∧ r.form = .new then [.evaluation, .preCheck r.id] else [.evaluation]) } :
          State).fadeTrack r.id := by
  unfold State.admission
  split
  · rename_i l hl
    refine .inr ⟨l, rfl, hl, ?_⟩
    by_cases h : peer = true ∧ r.form = .new
    · simp [h, State.raise, State.setTracks]
    · have h' : ¬((peer && decide (r.form = .new)) = true) := by simpa using h
      simp only [h', h, if_false, State.raise, State.setTracks]
      rfl
  · exact .inl ⟨by simp, rfl⟩
  · exact .inl ⟨by simp, rfl⟩

end Sys2Proof.Machine
end

