-- ==== Sys2Proof/Laws/Memory.lean ====
section
/-! SUPPORT. The addressed bytes: what a write changes, and that every operation keeps the canonical
form and the extent. -/

namespace Sys2Proof.Machine

/-! ### The canonical form -/

@[simp] theorem Memory.risingFrom_nil (n : Nat) : Memory.risingFrom n [] = true := rfl

@[simp] theorem Memory.risingFrom_cons (n a : Nat) (b : Byte) (m : Memory) :
    Memory.risingFrom n ((a, b) :: m) = true ↔
      n ≤ a ∧ b ≠ Memory.blank ∧ Memory.risingFrom (a + 1) m = true := by
  simp [Memory.risingFrom, and_assoc]

@[simp] theorem Memory.wf_nil : Memory.wf [] = true := rfl

theorem Memory.risingFrom_mono {m : Memory} {n k : Nat} (h : Memory.risingFrom n m = true)
    (hk : k ≤ n) : Memory.risingFrom k m = true := by
  cases m with
  | nil => rfl
  | cons c m =>
    obtain ⟨a, b⟩ := c
    simp only [Memory.risingFrom_cons] at h ⊢
    exact ⟨hk.trans h.1, h.2⟩

/-- Below its first address a memory in canonical form reads as blank. -/
theorem Memory.read_below {m : Memory} {n x : Nat} (h : Memory.risingFrom n m = true) (hx : x < n) :
    m.read x = Memory.blank := by
  induction m generalizing n with
  | nil => rfl
  | cons c m ih =>
    obtain ⟨a, b⟩ := c
    simp only [Memory.risingFrom_cons] at h
    have : a ≠ x := by omega
    simp only [Memory.read, this, if_false]
    exact ih h.2.2 (by omega)

theorem Memory.risingFrom_write {m : Memory} {n x : Nat} (b : Byte)
    (h : Memory.risingFrom n m = true) (hx : n ≤ x) : Memory.risingFrom n (m.write x b) = true := by
  induction m generalizing n with
  | nil => by_cases hb : b = Memory.blank <;> simp [Memory.write, hb, hx]
  | cons c m ih =>
    obtain ⟨a, d⟩ := c
    simp only [Memory.risingFrom_cons] at h
    simp only [Memory.write]
    split
    · split
      · simpa using h
      · simp_all
    · split
      · split
        · exact Memory.risingFrom_mono h.2.2 (by omega)
        · simp_all
      · simpa using ⟨h.1, h.2.1, ih h.2.2 (by omega)⟩

/-- A write keeps the canonical form. -/
theorem Memory.wf_write {m : Memory} (h : m.wf = true) (x : Nat) (b : Byte) :
    (m.write x b).wf = true := Memory.risingFrom_write b h (Nat.zero_le x)

/-- A block write keeps the canonical form. -/
theorem Memory.wf_writeBlock {m : Memory} (h : m.wf = true) (a : Nat) (l : List Byte) :
    (m.writeBlock a l).wf = true := by
  induction l generalizing m a with
  | nil => exact h
  | cons b l ih => exact ih (Memory.wf_write h a b) _

/-! ### Reading what was written -/

theorem Memory.read_write_from {m : Memory} {n : Nat} (h : Memory.risingFrom n m = true) (x y : Nat)
    (b : Byte) (hx : n ≤ x) : (m.write x b).read y = if y = x then b else m.read y := by
  induction m generalizing n with
  | nil =>
    simp only [Memory.write]
    split
    · rename_i hb
      split <;> simp [Memory.read, hb]
    · by_cases hy : y = x
      · simp [Memory.read, hy]
      · simp [Memory.read, hy, Ne.symm hy]
  | cons c m ih =>
    obtain ⟨a, d⟩ := c
    simp only [Memory.risingFrom_cons] at h
    simp only [Memory.write]
    split
    · rename_i hlt
      have hr := Memory.read_below h.2.2 (x := x) (by omega)
      split
      · rename_i hb
        split
        · rename_i hy
          have : a ≠ y := by omega
          subst hy
          simp [Memory.read, this, hr, hb]
        · rfl
      · by_cases hy : y = x
        · simp [Memory.read, hy]
        · simp [Memory.read, hy, Ne.symm hy]
    · split
      · rename_i hxa
        subst hxa
        split
        · rename_i hb
          by_cases hy : y = x
          · subst hy
            simp [hb, Memory.read_below h.2.2 (x := y) (by omega)]
          · simp [Memory.read, hy, Ne.symm hy]
        · by_cases hy : y = x
          · simp [Memory.read, hy]
          · simp [Memory.read, hy, Ne.symm hy]
      · by_cases hay : a = y
        · have : y ≠ x := by omega
          simp [Memory.read, hay, this]
        · simp only [Memory.read, hay, if_false]
          exact ih h.2.2 (by omega)

/-- The byte written reads back. -/
theorem Memory.read_write_same {m : Memory} (h : m.wf = true) (x : Nat) (b : Byte) :
    (m.write x b).read x = b := by
  simpa using Memory.read_write_from h x x b (Nat.zero_le x)

/-- Every other byte reads as before. -/
theorem Memory.read_write_other {m : Memory} (h : m.wf = true) {x y : Nat} (hy : y ≠ x) (b : Byte) :
    (m.write x b).read y = m.read y := by
  simpa [hy] using Memory.read_write_from h x y b (Nat.zero_le x)

/-- All that a block write does to the bytes read. -/
theorem Memory.read_writeBlock {m : Memory} (h : m.wf = true) (a : Nat) (l : List Byte) (y : Nat) :
    (m.writeBlock a l).read y =
      if a ≤ y ∧ y < a + l.length then l.getD (y - a) 0 else m.read y := by
  induction l generalizing m a with
  | nil =>
    simp [Memory.writeBlock]
  | cons b l ih =>
    simp only [Memory.writeBlock]
    rw [ih (Memory.wf_write h a b)]
    by_cases hy : y = a
    · subst hy
      have h1 : ¬(y + 1 ≤ y ∧ y < y + 1 + l.length) := by omega
      have h2 : y ≤ y ∧ y < y + (b :: l).length := by simp
      simp only [h1, if_false, h2, Memory.read_write_same h]
      simp
    · rw [Memory.read_write_other h hy]
      by_cases h1 : a + 1 ≤ y ∧ y < a + 1 + l.length
      · have h2 : a ≤ y ∧ y < a + (b :: l).length := by simp; omega
        simp only [h1, h2, and_self, if_true]
        obtain ⟨k, rfl⟩ : ∃ k, y = a + 1 + k := ⟨y - (a + 1), by omega⟩
        have e1 : a + 1 + k - (a + 1) = k := by omega
        have e2 : a + 1 + k - a = k + 1 := by omega
        simp [e1, e2]
      · have h2 : ¬(a ≤ y ∧ y < a + (b :: l).length) := by simp; omega
        simp only [h1, h2, if_false]

/-! ### Blocks -/

@[simp] theorem Memory.readBlock_length (m : Memory) (a n : Nat) : (m.readBlock a n).length = n := by
  induction n generalizing a with
  | zero => rfl
  | succ n ih => simp [Memory.readBlock, ih]

theorem Memory.readBlock_getD (m : Memory) (a n k : Nat) (hk : k < n) :
    (m.readBlock a n).getD k 0 = m.read (a + k) := by
  induction n generalizing a k with
  | zero => omega
  | succ n ih =>
    cases k with
    | zero => simp [Memory.readBlock]
    | succ k =>
      have := ih (a + 1) k (by omega)
      simp only [Memory.readBlock, List.getD_cons_succ, this]
      congr 1
      omega

/-! ### The extent -/

theorem Memory.below_write {m : Memory} {n x : Nat} (h : m.below n = true) (hx : x < n) (b : Byte) :
    (m.write x b).below n = true := by
  simp only [Memory.below, List.all_eq_true, decide_eq_true_eq] at h ⊢
  induction m with
  | nil =>
    intro c hc
    simp only [Memory.write] at hc
    split at hc <;> simp at hc
    simp [hc, hx]
  | cons c m ih =>
    obtain ⟨a, d⟩ := c
    have ha : a < n := h (a, d) (by simp)
    have hm : ∀ c ∈ m, c.1 < n := fun c hc => h c (by simp [hc])
    intro c hc
    simp only [Memory.write] at hc
    split at hc
    · split at hc
      · exact h c hc
      · rcases List.mem_cons.1 hc with rfl | hc
        · exact hx
        · exact h c hc
    · split at hc
      · split at hc
        · exact hm c hc
        · rcases List.mem_cons.1 hc with rfl | hc
          · exact hx
          · exact hm c hc
      · rcases List.mem_cons.1 hc with rfl | hc
        · exact ha
        · exact ih hm c hc

theorem Memory.below_writeBlock {m : Memory} {n a : Nat} {l : List Byte} (h : m.below n = true)
    (ha : a + l.length ≤ n) : (m.writeBlock a l).below n = true := by
  induction l generalizing m a with
  | nil => exact h
  | cons b l ih =>
    simp only [List.length_cons] at ha
    exact ih (Memory.below_write h (by omega) b) (by omega)

/-- Two memories in canonical form that read alike are equal. -/
theorem Memory.ext_of_read {m k : Memory} {n : Nat} (hm : Memory.risingFrom n m = true)
    (hk : Memory.risingFrom n k = true) (h : ∀ x, m.read x = k.read x) : m = k := by
  induction m generalizing k n with
  | nil =>
    cases k with
    | nil => rfl
    | cons c k =>
      obtain ⟨a, b⟩ := c
      simp only [Memory.risingFrom_cons] at hk
      have := h a
      simp [Memory.read] at this
      exact absurd this.symm hk.2.1
  | cons c m ih =>
    obtain ⟨a, b⟩ := c
    simp only [Memory.risingFrom_cons] at hm
    cases k with
    | nil =>
      have := h a
      simp [Memory.read] at this
      exact absurd this hm.2.1
    | cons c k =>
      obtain ⟨a', b'⟩ := c
      simp only [Memory.risingFrom_cons] at hk
      have haa : a = a' := by
        rcases Nat.lt_trichotomy a a' with hlt | he | hlt
        · have := h a
          have h1 : a' ≠ a := by omega
          simp [Memory.read, h1, Memory.read_below hk.2.2 (x := a) (by omega)] at this
          exact absurd this hm.2.1
        · exact he
        · have := h a'
          have h1 : a ≠ a' := by omega
          simp [Memory.read, h1, Memory.read_below hm.2.2 (x := a') (by omega)] at this
          exact absurd this.symm hk.2.1
      subst haa
      have hb : b = b' := by simpa [Memory.read] using h a
      subst hb
      congr 1
      refine ih hm.2.2 hk.2.2 fun x => ?_
      by_cases hx : a = x
      · subst hx
        rw [Memory.read_below hm.2.2 (by omega), Memory.read_below hk.2.2 (by omega)]
      · simpa [Memory.read, hx] using h x

/-! ### The machine's own memory operations -/

/-- R180: the buffer a page is loaded into is in canonical form. -/
theorem loadedBuffer_wf (m : Memory) (table page : Nat) : (loadedBuffer m table page).wf = true :=
  Memory.wf_writeBlock Memory.wf_nil _ _

/-- R181: the committed tables are in canonical form. -/
theorem committed_wf {m : Memory} (h : m.wf = true) (c : Scs) : (committed m c).wf = true :=
  Memory.wf_writeBlock h _ _

/-- R180: every byte of the buffer a page is loaded into. -/
theorem loadedBuffer_read (m : Memory) (table page k : Nat) :
    (loadedBuffer m table page).read k =
      if k < movedBytes table then m.read (pageAddr table page + k) else 0 := by
  rw [loadedBuffer, Memory.read_writeBlock Memory.wf_nil]
  by_cases hk : k < movedBytes table
  · simp only [Nat.zero_le, Memory.readBlock_length, Nat.zero_add, hk, and_self, if_true, Nat.sub_zero]
    exact Memory.readBlock_getD _ _ _ _ hk
  · simp [hk, Memory.read, Memory.blank]

/-- R181: every byte of the tables after a commit. -/
theorem committed_read {m : Memory} (h : m.wf = true) (c : Scs) (a : Nat) :
    (committed m c).read a =
      if pageAddr c.tableSel c.pageSel ≤ a ∧ a < pageAddr c.tableSel c.pageSel + movedBytes c.tableSel
      then c.buffer.read (a - pageAddr c.tableSel c.pageSel) else m.read a := by
  rw [committed, Memory.read_writeBlock h, Memory.readBlock_length]
  split
  · rename_i hk
    rw [Memory.readBlock_getD _ _ _ _ (by omega)]
    simp
  · rfl

end Sys2Proof.Machine
end

