-- ==== Sys2Proof/Laws/Posts.lean ====
section
/-! SUPPORT. What the shared operations of queue and line can change: a post, QLC's following of it, a
hold, a release and an abandonment touch Notice Queue, line controller and raised events only; a fault
event besides these the fault register, the health arm and the quiet-epoch mark. -/

namespace Sys2Proof.Machine

/-! ### `OnlyPosts` -/

theorem OnlyPosts.refl (s : State) : OnlyPosts s s := rfl

theorem OnlyPosts.trans {s t u : State} (h : OnlyPosts s t) (k : OnlyPosts t u) : OnlyPosts s u := by
  unfold OnlyPosts at *
  rw [k, h]

theorem OnlyPosts.mapNq (s : State) (f : Nq → Nq) : OnlyPosts s (s.mapNq f) := rfl
theorem OnlyPosts.mapQlc (s : State) (f : Qlc → Qlc) : OnlyPosts s (s.mapQlc f) := rfl
theorem OnlyPosts.raise (s : State) (e : Instr) : OnlyPosts s (s.raise e) := rfl

section fields
variable {s t : State} (h : OnlyPosts s t)
include h

theorem OnlyPosts.pins : t.pins = s.pins := by rw [h]
theorem OnlyPosts.tables : t.tables = s.tables := by rw [h]
theorem OnlyPosts.store : t.store = s.store := by rw [h]
theorem OnlyPosts.sfe : t.sfe = s.sfe := by rw [h]
theorem OnlyPosts.gdu : t.gdu = s.gdu := by rw [h]
theorem OnlyPosts.tracks : t.tracks = s.tracks := by rw [h]
theorem OnlyPosts.zev : t.zev = s.zev := by rw [h]
theorem OnlyPosts.prt : t.prt = s.prt := by rw [h]
theorem OnlyPosts.scs : t.scs = s.scs := by rw [h]
theorem OnlyPosts.pending : t.pending = s.pending := by rw [h]

end fields

/-! ### QLC's following -/

theorem State.expiryCheck_only (s : State) : OnlyPosts s s.expiryCheck := by
  unfold State.expiryCheck
  split
  · split
    · rfl
    · rfl
  · rfl

@[simp] theorem State.expiryCheck_nq (s : State) : s.expiryCheck.nq = s.nq := by
  unfold State.expiryCheck; split
  · split <;> rfl
  · rfl

@[simp] theorem State.expiryCheck_qlc (s : State) : s.expiryCheck.qlc = s.qlc := by
  unfold State.expiryCheck; split
  · split <;> rfl
  · rfl

theorem State.stopHoldoff_only (s : State) : OnlyPosts s s.stopHoldoff :=
  (OnlyPosts.mapQlc _ _).trans (State.expiryCheck_only _)

@[simp] theorem State.stopHoldoff_nq (s : State) : s.stopHoldoff.nq = s.nq := by
  simp [State.stopHoldoff]

@[simp] theorem State.stopHoldoff_qlc (s : State) :
    s.stopHoldoff.qlc = { s.qlc with holdoff := none } := by
  simp [State.stopHoldoff]

theorem State.follow_only (s : State) : OnlyPosts s s.follow := by
  unfold State.follow
  split
  · exact (OnlyPosts.mapQlc _ _).trans (State.expiryCheck_only _)
  · exact State.stopHoldoff_only s
  · split
    · rfl
    · exact (OnlyPosts.mapQlc _ _).trans (State.expiryCheck_only _)
  · rfl

@[simp] theorem State.follow_nq (s : State) : s.follow.nq = s.nq := by
  unfold State.follow
  split
  · simp [State.reselect]
  · simp
  · split
    · rfl
    · simp [State.beginHoldoff]
  · rfl

/-- With the line BUSY and no holdoff running QLC has nothing to follow. -/
theorem State.follow_busy {s : State} (hb : s.qlc.busy = true) (hh : s.qlc.holdoff = none) :
    s.follow = s := by
  unfold State.follow
  split
  · simp_all
  · simp_all
  · simp [hb]
  · rfl

/-! ### Posts -/

theorem State.place_only (s : State) (e : Entry) : OnlyPosts s (s.place e) := by
  unfold State.place
  split
  · rfl
  · split
    · rfl
    · split <;> rfl

theorem State.takePost_only (s : State) (e : Entry) : OnlyPosts s (s.takePost e) := by
  unfold State.takePost
  split
  · rfl
  · split
    · exact State.place_only s e
    · split <;> rfl

/-- A post changes Notice Queue, line controller and raised events only. -/
theorem State.post_only (s : State) (cls : Nat) (n : Notice) : OnlyPosts s (s.post cls n) :=
  ((OnlyPosts.mapNq _ _).trans (State.takePost_only _ _)).trans (State.follow_only _)

theorem State.releaseHeld_only (s : State) : OnlyPosts s s.releaseHeld := by
  unfold State.releaseHeld
  split
  · rfl
  · exact (OnlyPosts.mapNq _ _).trans (State.takePost_only _ _)

theorem State.releaseAfterSuccess_only (s : State) : OnlyPosts s s.releaseAfterSuccess := by
  unfold State.releaseAfterSuccess
  split
  · rfl
  · split
    · rfl
    · exact State.releaseHeld_only s

theorem State.abandon_only (s : State) : OnlyPosts s s.abandon := by
  unfold State.abandon
  split
  · rfl
  · exact ((OnlyPosts.mapQlc s _).trans (OnlyPosts.mapNq _ _)).trans (State.releaseHeld_only _)

/-- The ZONE notices of an evaluation are posts. -/
theorem State.postChanges_only (s : State) (bs as : List ZoneState) :
    OnlyPosts s (s.postChanges bs as) := by
  induction bs generalizing s as with
  | nil => cases as <;> rfl
  | cons b bs ih =>
    cases as with
    | nil => rfl
    | cons a as =>
      simp only [State.postChanges]
      split
      · exact ih _ _
      · exact (State.post_only _ _ _).trans (ih _ _)

/-- The ZONE notices of the entry into OPERATING are posts. -/
theorem State.postLevels_only (s : State) (zs : List ZoneState) : OnlyPosts s (s.postLevels zs) := by
  induction zs generalizing s with
  | nil => rfl
  | cons z zs ih =>
    simp only [State.postLevels]
    split
    · exact ih _
    · exact (State.post_only _ _ _).trans (ih _)

/-! ### Fault events -/

/-- `t` differs from `s` at most as a fault event may make it differ. -/
def OnlyFaults (s t : State) : Prop :=
  t = { s with
    nq := t.nq
    qlc := t.qlc
    raised := t.raised
    scs := { s.scs with
      faults := t.scs.faults, healthArm := t.scs.healthArm, quietEpoch := t.scs.quietEpoch } }

theorem OnlyFaults.refl (s : State) : OnlyFaults s s := rfl

theorem OnlyFaults.of_posts {s t : State} (h : OnlyPosts s t) : OnlyFaults s t := by
  unfold OnlyFaults OnlyPosts at *
  rw [h]

theorem OnlyFaults.trans {s t u : State} (h : OnlyFaults s t) (k : OnlyFaults t u) :
    OnlyFaults s u := by
  unfold OnlyFaults at *
  rw [k, h]

/-- A fault event changes fault register, health arm, quiet-epoch mark, queue, line and raised events. -/
theorem State.faultEvent_only (s : State) (f : FaultFlag) : OnlyFaults s (s.faultEvent f) := by
  unfold State.faultEvent
  have h1 : OnlyFaults s (s.mapScs fun c => { c with faults := c.faults.set f, quietEpoch := false }) :=
    rfl
  generalize s.mapScs (fun c => { c with faults := c.faults.set f, quietEpoch := false }) = s1 at h1
  simp only
  split
  · exact h1
  · have h2 : OnlyFaults s (if f = .duplicateStation then s1.abandon.follow else s1) := by
      split
      · exact h1.trans (.of_posts ((State.abandon_only _).trans (State.follow_only _)))
      · exact h1
    generalize (if f = FaultFlag.duplicateStation then s1.abandon.follow else s1) = s2 at h2
    split
    · have h3 : OnlyFaults s2 (s2.mapScs fun c => { c with healthArm := false }) := rfl
      exact h2.trans (h3.trans (.of_posts (State.post_only _ _ _)))
    · exact h2

theorem State.risingFault_only (s : State) (before after : Bool) (f : FaultFlag) :
    OnlyFaults s (s.risingFault before after f) := by
  unfold State.risingFault
  split
  · exact State.faultEvent_only s f
  · rfl

/-- A fault event leaves its flag set. -/
theorem Faults.get_set (a : Faults) (f : FaultFlag) : (a.set f).get f = true := by
  cases f <;> rfl

/-- A fault event changes no other flag. -/
theorem Faults.get_set_other {f g : FaultFlag} (a : Faults) (h : g ≠ f) :
    (a.set f).get g = a.get g := by
  cases f <;> cases g <;> first | rfl | exact absurd rfl h

/-- The fault register after a fault event. -/
theorem State.faultEvent_faults (s : State) (f : FaultFlag) :
    (s.faultEvent f).scs.faults = s.scs.faults.set f := by
  unfold State.faultEvent
  have h1 : (s.mapScs fun c =>
      { c with faults := c.faults.set f, quietEpoch := false }).scs.faults = s.scs.faults.set f := rfl
  generalize s.mapScs (fun c => { c with faults := c.faults.set f, quietEpoch := false }) = s1 at h1
  simp only
  split
  · exact h1
  · have h2 : (if f = .duplicateStation then s1.abandon.follow else s1).scs.faults =
        s.scs.faults.set f := by
      split
      · rw [((State.abandon_only _).trans (State.follow_only _)).scs, h1]
      · exact h1
    generalize (if f = FaultFlag.duplicateStation then s1.abandon.follow else s1) = s2 at h2
    split
    · rw [(State.post_only _ _ _).scs, ← h2]
      rfl
    · exact h2

end Sys2Proof.Machine
end

