-- ==== Sys2Proof/Tests/Slice0.lean ====
section
/-! SUPPORT. Tests of the model on small states: the checks of WellFormed, one or two effects of each
command, and for every statement with hypotheses a state and operands that meet them together. -/

namespace Sys2Proof.Tests

open Sys2Proof.Machine

/-! ### WellFormed refuses -/

theorem test_wf_page_length :
    (Instr.storePageDone (List.replicate 191 0)).wf = false ∧
    (Instr.storePageDone (List.replicate 192 0)).wf = true ∧
    (Instr.storePageDone (List.replicate 112 0)).wf = true ∧
    (Instr.storePageDone (List.replicate 96 0)).wf = true ∧
    (Instr.storePageDone (List.replicate 800 0)).wf = true := by decide +kernel
theorem test_wf_unknown_command :
    (Instr.unknownCommand 1).wf = false ∧ (Instr.unknownCommand 8).wf = false ∧
    (Instr.unknownCommand 0).wf = true ∧ (Instr.unknownCommand 9).wf = true := by decide
theorem test_wf_ignored_write :
    (Instr.registerWriteIgnored 3 0).wf = false ∧ (Instr.registerWriteIgnored 1 0).wf = true := by decide
theorem test_wf_quiet :
    (Instr.holdoffExpiry 256).wf = false ∧ (Instr.holdoffExpiry 255).wf = true := by decide
theorem test_wf_frame :
    (Instr.frameReceived (List.replicate 258 0)).wf = false ∧
    (Instr.frameReceived (List.replicate 257 0)).wf = true := by decide +kernel
theorem test_wf_track_id :
    (Instr.preCheck ⟨0, 0⟩).wf = false ∧ (Instr.preCheck ⟨33, 0⟩).wf = false ∧
    (Instr.fadeDeadline ⟨1, 256⟩).wf = false ∧ (Instr.closeDeadline ⟨1, 256⟩).wf = false ∧
    (Instr.preCheck ⟨32, 255⟩).wf = true ∧ (Instr.fadeDeadline ⟨1, 0⟩).wf = true ∧
    (Instr.closeDeadline ⟨1, 0⟩).wf = true := by decide
theorem test_wf_station :
    (Instr.silenceDeadline 0).wf = false ∧ (Instr.silenceDeadline 33).wf = false ∧
    (Instr.silenceDeadline 1).wf = true ∧ (Instr.silenceDeadline 32).wf = true := by decide

/-! ### Shared arithmetic -/

/-- R193: the check value of the nine characters 1 to 9, and the register of no byte. -/
theorem test_crc :
    crc16 [0x31, 0x32, 0x33, 0x34, 0x35, 0x36, 0x37, 0x38, 0x39] = 0x29B1 ∧ crc16 [] = 0xFFFF := by
  decide +kernel
/-- R125: the example of section 7.2: station 7, rotation 29, class 3, attempts 2, drawn 5. -/
theorem test_holdoff :
    position 7 29 = 4 ∧ holdoffLength 7 29 3 2 5 = 134 ∧ holdoffLength 7 29 0 0 5 = 4 ∧
    holdoffLength 1 0 0 0 7 = 1 ∧ holdoffLength 32 0 4 5 7 = 227 := by decide
/-- R126. -/
theorem test_sequence : seqAdvance 0x8000 = 1 ∧ seqAdvance 1 = 2 ∧ (seqStart 32).toNat = 65248 := by
  decide
/-- R23. -/
theorem test_gray : (List.range 16).map (fun n => grayDecode (BitVec.ofNat 4 (n ^^^ (n / 2)))) =
    List.range 16 := by decide
/-- R88: the transits of the example of section 5.8. -/
theorem test_transit : transit 650 180 = 36111 ∧ transit 900 180 = 50000 ∧ transit 250 240 = 10416 ∧
    transit 3000 0 = 3000000 := by decide
/-- R166: the correction of the example of section 9.2. -/
theorem test_correction :
    correction [⟨3, -1178558986, .locked⟩, ⟨5, -1178559000, .locked⟩, ⟨9, -1178558991, .pulling⟩,
      ⟨17, 18000, .free⟩] = some (-1178558988) ∧
    correction [⟨3, 3, .locked⟩, ⟨5, -2, .locked⟩, ⟨9, 6, .pulling⟩] = some 1 ∧
    correction [⟨3, -5, .free⟩] = some (-2) ∧ correction [] = none := by decide
theorem test_time :
    earlier 5 6 = true ∧ earlier 6 5 = false ∧ earlier 0xFFFFFFFF 0 = true ∧ reached 7 7 = true ∧
    reached 6 7 = false := by decide

/-! ### Small states -/

/-- What a command leaves. -/
def after (c : Instr) (s : State) : State :=
  match exec c s with
  | .next t => t
  | .fault _ => s
  | .refused _ => s

/-- A site of two stations and two zones: station 1 owns COMPUTED zone 0, station 2 MIRROR zone 1. -/
def tables : Memory :=
  ((((Memory.writeBlock [] 0 [2, 1, 2, 0, 30, 0, 30, 20, 3, 20, 2, 88]).writeBlock 192
    [1, 0, 6, 40, 0, 30, 20]).writeBlock 199 [7, 1, 6, 40, 0, 30, 20]).writeBlock 416
    [2, 1, 1, 0, 0, 100]).writeBlock 1568
    [1, 1, 1, 0, 15, 0, 0, 0, 0, 0, 90, 0, 45, 0, 20, 0, 120, 3, 0, 1, 2, 1, 0, 1, 44]
    |>.writeBlock 1618 [1, 2, 2, 0, 15, 0, 0, 0, 0, 0, 90, 0, 45, 0, 20, 0, 120, 3, 0, 0]

/-- The part in WINDOW with a valid store of `tables`. -/
def windowState : State :=
  { State.reset with
    tables := tables
    store := { valid := true, checksum := tableChecksum tables, pages := tables }
    scs := { State.reset.scs with checksum := tableChecksum tables } }

def withStation (s : State) (t : StationState) : State := { s with scs := { s.scs with station := t } }
def withBusy (s : State) (b : BusyMark) : State := { s with scs := { s.scs with busy := b } }

/-- The part in SETUP with the working tables `tables` and their checksum expected. -/
def setupState : State :=
  { withStation State.reset .setup with
    tables := tables
    scs := { (withStation State.reset .setup).scs with expected := tableChecksum tables } }

/-- Station 1 in OPERATING at common time 1 000 000. -/
def operating : State :=
  { withStation windowState .operating with
    zev := zevSet tables 1
    prt := { windowState.prt with time := 1000000 } }

/-- The same on an IDLE line. -/
def idleLine : State := { operating with qlc := { operating.qlc with busy := false } }

/-- Two sightings and the track of station 2 that holds one. -/
def sighting2 : Sighting :=
  { station := 2, time := 995000, speed := 180, dust := none, w := false, trusted := true, updates := 0 }
def track2 : Track :=
  { id := ⟨2, 7⟩, state := .opened, confirmed := false, placeholder := false, onset := some 995000
    sector := 8, sightings := [sighting2], peakSpeed := 180, peakDust := none, w := false
    last := 995000, fade := 1025000, close := none }
def ownSighting : Sighting := { sighting2 with station := 1, time := 999900 }
def ownTrack : Track :=
  { track2 with id := ⟨1, 0⟩, onset := some 999900, sightings := [ownSighting], last := 999900 }

/-- The same track FADING, CONFIRMED, and as a placeholder. -/
def fadingTrack : Track := { track2 with state := .fading, close := some 1030000 }
def confirmedTrack : Track := { track2 with state := .confirmed, confirmed := true }
def placeholderTrack (l : List Sighting) : Track :=
  { track2 with placeholder := true, onset := none, sightings := l }

def withTracks (s : State) (l : List Track) : State :=
  { s with tracks := l.map some ++ List.replicate (16 - l.length) none }

/-- A NEW of station 2 as a frame brings it, and the notice of the own track. -/
def newNotice : SightingNotice :=
  { id := ⟨2, 7⟩, form := .new, w := false, trusted := true, time := 995000, sector := 8, speed := 180
    dust := none, updates := 0 }
def ownNotice : SightingNotice := { newNotice with id := ⟨1, 0⟩, time := 999900 }

def entry (n : Notice) (cls order : Nat) : Entry :=
  { notice := n, cls := cls, postTime := 1000000, steps := 0, order := order, attempts := 0
    inFlight := false }

def withEntries (s : State) (l : List Entry) : State :=
  { s with nq := { entries := l, held := none, steps := 0, nextOrder := l.length } }

/-- A state that drives the frame of its only entry. -/
def sending (n : Notice) (attempts : Nat) : State :=
  { withEntries operating [{ entry n 4 0 with attempts := attempts, inFlight := true }] with
    qlc := { operating.qlc with
      inFlight := some n.key, qde := true, ownRead := some { arrival := 999990, chars := [0x31] } } }

/-- The same with a held post. -/
def sendingHeld (n : Notice) (attempts : Nat) (h : Notice) : State :=
  let s := sending n attempts
  { s with nq := { s.nq with held := some (entry h 2 1), nextOrder := 2 } }

/-- The record of a frame begun at 999 950, its characters still to come or in part read. -/
def record (chars : List Byte) : RxFrame := { arrival := 999950, chars := chars }
def receiving (s : State) : State := { s with qlc := { s.qlc with rx := some (record []) } }
def receivingPart (s : State) (chars : List Byte) : State :=
  { s with qlc := { s.qlc with rx := some (record chars) } }

/-- A frame of `body` with its length byte and CRC bytes right. -/
def sealed (body : List Byte) : List Byte := body ++ bytes2 (crc16 body).toNat

/-- A frame with its CRC right but of an unknown kind. -/
def badForm : List Byte := sealed [0x34, 7, 2, 0, 0, 0, 0]

/-- Station 2 heard as PRESENT at 999 000. -/
def withPeer (s : State) (state : RosterState) (deadline : Option Time) : State :=
  { s with prt := { s.prt with
      roster := s.prt.roster.set 1
        { state := state, lastHeard := 999000, deadline := deadline, announced := none } } }

def presence : Announced :=
  { operating := true, lock := .locked, trusted := true, checksum := 0x1234, trim := -3, faults := 5
    s60 := some 44, pairs := [⟨1, .warn, true⟩] }

/-- Station 2 in OPERATING, the owner of the MIRROR zone of station 1's zone 0. -/
def mirroring (z : ZoneState) : State :=
  { operating with
    scs := { operating.scs with own := 2 }
    zev := { zones := [z], received := [receivedSet 0] }
    prt := { operating.prt with roster := clearedRoster 2 } }

/-- The mirror zone's state, LOST or not, with a contribution and a LOST deadline. -/
def mirrorZone (lost : Bool) (c : Level) (d : Option Time) : ZoneState :=
  { zoneSet tables 1 with lost := lost, contribution := c, lostDeadline := d }

/-- A sample makes the detector of a full window qualify. -/
def gusty (mode : Mode) : State :=
  { operating with
    gdu := { mode := mode, nextSeq := 0 }
    sfe := { operating.sfe with
      anemoWindow := List.replicate 239 0, warming := 239, anemoCount := 255, sectorTaken := true } }

def episode : Episode :=
  { reporting := false, track := none, recorded := false, onset := 999000, sector := 8, peakSpeed := 5
    peakDust := none, w := false, trusted := false, lastSpeed := 5, lastDust := none, updates := 0
    quiet := 11 }

/-- RST held low. -/
def held (s : State) : State := { s with pins := { s.pins with rstLow := true } }

/-- A PRESENCE waits with a holdoff of 161 running. -/
def counting : State := after .lineIdle (withEntries operating [entry .presence 4 0])

/-! ### One effect of each command -/

theorem test_reset_memory :
    State.reset.tables.wf = true ∧ State.reset.store.pages.wf = true ∧
    State.reset.scs.buffer.wf = true := by decide
theorem test_power_on :
    (after (.powerOn 4 true false) windowState).scs.own = 5 ∧
    (after (.powerOn 4 true false) windowState).tables = tables := by decide
theorem test_rst_assert :
    (after .rstAssert operating).trouble = true ∧
    (after (.pulseEdge .anemo) (held operating)).sfe = operating.sfe := by decide
theorem test_line_reset :
    (after (.lineReset 0 false false) (held operating)).pins.rstLow = false ∧
    (after (.lineReset 0 false false) (held operating)).prt.time = 1000000 := by decide
theorem test_sample_event :
    (after (.sampleEvent 12 true) operating).sfe.accepted = 8 ∧
    (after (.sampleEvent 12 true) operating).sfe.warming = 1 := by decide
theorem test_sample_onset : (after (.sampleEvent 0 true) (gusty .quiet)).gdu.mode = .arming := by decide +kernel
theorem test_pulse_edge : (after (.pulseEdge .dust) operating).sfe.dustCount = 1 := by decide
theorem test_suppr_transition :
    (after (.supprTransition true) operating).sfe.supprLevel = true ∧
    (after (.supprTransition true) operating).sfe.latch = false := by decide
theorem test_ack_transition :
    (after (.ackTransition true) operating).sfe.ackPending = false ∧
    (after (.ackTransition false) (after (.ackTransition true) operating)).sfe.ackPending = true := by
  decide
theorem test_window_expiry :
    (after .windowExpiry windowState).scs.station = .joining ∧
    (after .windowExpiry State.reset).scs.setupError = .storeInvalid := by decide
theorem test_hold : (after .hold State.reset).scs.station = .setup := by decide
theorem test_clear_buffer : (after .clearBuffer setupState).scs.result = .done := by decide
theorem test_commit_page :
    (after .commitPage setupState).scs.busy = .commit ∧
    (after .commitPage setupState).raised = [.commitComplete] := by decide
theorem test_commit_complete :
    (after .commitComplete (after .commitPage setupState)).tables.read 0 = 0 ∧
    (after .commitComplete (after .commitPage setupState)).tables.read 192 = 1 := by decide
theorem test_start_range :
    (after .start (withStation State.reset .setup)).scs.setupError = .range := by decide
theorem test_start_passes : validate tables 1 = none := by decide
theorem test_store_page_done :
    (after (.storePageDone []) (setupState.beginProgramming 0)).scs.prog =
      some ⟨.page 0, true, 0⟩ := by decide
theorem test_store_header_done :
    (after (.storeHeaderDone true 5) ((setupState.beginProgramming 5).setProg
      ⟨.header, false, 5⟩)).scs.station = .joining := by decide
theorem test_restart : (after .restart operating).scs.station = .joining := by decide
theorem test_clear_faults :
    (after .clearFaults { operating with scs := { operating.scs with
      faults := { Faults.none with lineTrouble := true } } }).scs.faults = Faults.none := by decide
theorem test_channel_out :
    (after .channelOut operating).scs.result = .refusedArgument ∧
    (after .channelOut (after (.viewSelect 0xC0) operating)).sfe.anemoIn = false := by decide
theorem test_channel_in :
    (after .channelIn (after .channelOut (after (.viewSelect 0xC5) operating))).sfe.lampIn = true := by
  decide
theorem test_unknown_command :
    (after (.unknownCommand 9) operating).scs.result = .refusedArgument := by decide
theorem test_table_select_write :
    (after (.tableSelectWrite 0x10) setupState).scs.buffer.read 6 = 20 ∧
    after (.tableSelectWrite 0x12) setupState = setupState := ⟨by decide +kernel, rfl⟩
theorem test_entry_pointer_write :
    (after (.entryPointerWrite 99) setupState).scs.entryPtr = 15 := by decide
theorem test_entry_data_write :
    (after (.entryDataWrite 7) setupState).scs.buffer = [(0, 7)] ∧
    (after (.entryDataWrite 7) setupState).scs.byteOff = 1 := by decide
theorem test_entry_data_read :
    (after .entryDataRead (after (.tableSelectWrite 0) setupState)).scs.sdout = some 2 := by decide
theorem test_expected_checksum_h :
    (after (.expectedChecksumH 0x12) State.reset).scs.expected = 0x1200 := by decide
theorem test_expected_checksum_l :
    (after (.expectedChecksumL 0x34) State.reset).scs.expected = 0x0034 := by decide
theorem test_view_select :
    (after (.viewSelect 0x80) operating).scs.view = .copy [0] ∧
    (after (.viewSelect 0x40) operating).viewBytes.length = 18 := by decide
theorem test_view_data :
    (after .viewData (after (.viewSelect 1) operating)).scs.sdout = some 4 ∧
    (after .viewData operating).scs.sdout = some 0 := by decide
theorem test_register_write_ignored : after (.registerWriteIgnored 1 9) operating = operating := rfl
theorem test_transaction_abandon :
    (after .transactionAbandon (after .viewData operating)).scs.sdout = none ∧
    (after .hold (held windowState)).scs.station = .window ∧
    (after .hold { windowState with scs := { windowState.scs with sselSeen := false } }).scs.station =
      .window := by decide
theorem test_line_busy :
    (after .lineBusy idleLine).qlc.busy = true ∧
    (after .lineBusy idleLine).qlc.rx = some { arrival := 1000000, chars := [] } := by decide
theorem test_line_idle :
    (after .lineIdle (withEntries operating [entry .presence 4 0])).qlc.holdoff =
      some ⟨.presence, 161, 0⟩ ∧
    operating.millisecond.millisecond.raised = [.lineIdle] := by decide +kernel
theorem test_holdoff_expiry :
    (after (.holdoffExpiry 161) (after .lineIdle (withEntries operating [entry .presence 4 0]))).qlc.qde =
      true ∧
    (after (.holdoffExpiry 160) (after .lineIdle (withEntries operating [entry .presence 4 0]))).qlc.qde =
      false := by decide
theorem test_transmit_success :
    (after .transmitSuccess (sending (.zone 0 .alarm) 0)).zev.zones.map (·.announced) = [.alarm] ∧
    (after .transmitSuccess (sending (.zone 0 .alarm) 0)).nq.entries = [] := by decide
theorem test_collision :
    (after .collision (sending .presence 4)).nq.entries.map (·.attempts) = [5] ∧
    (after .collision (sending .presence 4)).qlc.rx = some { arrival := 999990, chars := [0x31] } ∧
    (after .collision (sending (.zone 0 .alarm) 5)).scs.faults.lineTrouble = true := by decide
theorem test_frame_received :
    ((after (.frameReceived (frameBytes .sighting 2 999900 (sightingBytes newNotice)))
      (receiving operating)).trackOf ⟨2, 7⟩).map (·.sightings) = some [sighting2] ∧
    ((after (.frameReceived ((frameBytes .sighting 2 999900 (sightingBytes newNotice)).drop 5))
      (receivingPart operating ((frameBytes .sighting 2 999900 (sightingBytes newNotice)).take 5))).trackOf
        ⟨2, 7⟩).map (·.sightings) = some [sighting2] := by decide +kernel
/-- R123: characters that do not complete a frame are kept; the line's IDLE ends it as truncated, before the
line is IDLE, and the holdoff then begun keeps the count that no bad frame has advanced (R133). -/
theorem test_frame_rejected :
    let s := receivingPart (withEntries operating [entry .presence 4 0]) [0x31, 0x10, 2]
    (after (.frameReceived [0x31, 0x10, 2]) (receiving operating)).qlc.rx = some (record [0x31, 0x10, 2]) ∧
    (after .lineIdle s).qlc.rx = none ∧ (after .lineIdle s).qlc.busy = false ∧
    (after .lineIdle s).qlc.rejectCause = 1 ∧ (after .lineIdle s).qlc.rejectSender = 2 ∧
    (after .lineIdle s).qlc.holdoff = some ⟨.presence, 161, 0⟩ := by decide
/-- R122, R123: a start bit with nothing after it ends by itself, as a frame of no character. -/
theorem test_noise_pulse :
    (after .lineBusy idleLine).millisecond.millisecond.raised = [.lineIdle] ∧
    (after .lineIdle (after .lineBusy idleLine)).qlc.rejectCause = 1 ∧
    (after .lineIdle (after .lineBusy idleLine)).qlc.rx = none := by decide +kernel
/-- R133: a good frame advances the count at its end; the holdoff begun at the next IDLE uses it. -/
theorem test_rotation_before_idle :
    let s := withEntries operating [entry .presence 4 0]
    (after .lineIdle (after (.frameReceived badForm) (receiving s))).qlc.holdoff =
      some ⟨.presence, 162, 1⟩ := by decide +kernel
/-- R123, R131: a frame found in collision at its last character has ended, and is checked. -/
theorem test_collision_last_character :
    let s := sending .presence 4
    let t := after .collision
      { s with qlc := { s.qlc with ownRead := some { arrival := 999990, chars := badForm } } }
    t.qlc.rx = none ∧ t.qlc.rejectCause = 2 ∧ t.qlc.rotation = 1 ∧ t.nq.entries.map (·.attempts) = [5] := by
  decide +kernel
/-- R71, R73: a fade deadline that an admission sets in the past passes in the same step. -/
theorem test_fade_at_admission :
    let s := { receiving operating with prt := { operating.prt with time := 1030000 } }
    let f := frameBytes .sighting 2 1029900 (sightingBytes newNotice)
    ((after (.frameReceived f) s).trackOf ⟨2, 7⟩).map (·.state) = some .fading ∧
    (after (.frameReceived f) s).raised = [.evaluation, .preCheck ⟨2, 7⟩, .evaluation] := by decide +kernel
/-- R144: a fold that keeps the class keeps the entry's place, whatever the post times. -/
theorem test_fold_in_place :
    let l := [{ entry .presence 4 0 with postTime := 100 }, { entry (.zone 0 .warn) 4 1 with postTime := 50 }]
    ((withEntries operating l).post 4 .presence).nq.entries = l := by decide
theorem test_pre_check :
    ((after (.preCheck ⟨2, 7⟩) (withEntries (withTracks operating [ownTrack, track2])
      [entry (.sighting ownNotice) 1 0])).nq.entries.map (·.key)) = [.sighting ⟨2, 7⟩] := by decide
theorem test_fade_deadline :
    (after (.fadeDeadline ⟨2, 7⟩) (withTracks operating [{ track2 with fade := 1000000 }])).tracks.head? =
      some (some { track2 with fade := 1000000, state := .fading, close := some 1030000 }) := by decide
theorem test_close_deadline :
    (after (.closeDeadline ⟨2, 7⟩) (withTracks operating
      [{ track2 with state := .fading, close := some 1000000 }])).tracks = emptySlots := by decide
theorem test_silence_deadline :
    (after (.silenceDeadline 2) (withPeer operating .present (some 1000000))).rosterState 2 =
      some .silent := by decide
theorem test_tick :
    (after .tick (withTracks operating [{ track2 with confirmed := true, sightings :=
      [{ sighting2 with time := 996000 }] }])).zev.zones.map (·.level) = [.alarm] := by decide
theorem test_evaluation : (after .evaluation operating).zev.zones.map (·.level) = [.clear] := by decide
theorem test_ack_evaluation :
    (after .ackEvaluation { operating with
      sfe := { operating.sfe with ackPending := true }
      zev := { operating.zev with zones := operating.zev.zones.map fun z =>
        { z with level := .warn } } }).zev.zones.map (·.acked) = [true] := by decide
theorem test_epoch_boundary :
    (after .epochBoundary { operating with prt := { operating.prt with
      offsets := [⟨2, 20, .locked⟩] } }).prt.slew = 8 ∧
    (after .epochBoundary (withStation { operating with scs := { operating.scs with joining := 1 } }
      .joining)).scs.station = .operating ∧
    (after .epochBoundary (withStation { operating with
      prt := { operating.prt with offsets := [⟨2, 16400, .locked⟩] }, raised := [.evaluation] }
      .joining)).raised = [.tick, .schedulePoint, .evaluation] := by decide +kernel
/-- R75, R162: the deadlines that a count, a gain of slew or trim, or a JOINING step reaches pass in its step: a
fade, a removal and a silence at the value reached; a fade one value later does not. -/
def nearing (s : State) : State :=
  { withTracks (withPeer s .present (some 1000001))
      [{ track2 with fade := 1000001 }, { fadingTrack with id := ⟨2, 8⟩, close := some 1000001 },
        { track2 with id := ⟨2, 9⟩, fade := 1000002 }] with pins := s.pins }
def passed : List (Option Track) :=
  [some { fadingTrack with fade := 1000001, close := some 1030001 }, none,
    some { track2 with id := ⟨2, 9⟩, fade := 1000002 }]
theorem test_deadlines_gain :
    let s := nearing { operating with prt := { operating.prt with slew := 1, trim := 1 } }
    (after .slewStep s).tracks.take 3 = passed ∧ (after .slewStep s).rosterState 2 = some .silent ∧
    (after .slewStep s).raised = [.evaluation, .evaluation] ∧
    (after .trimStep s).tracks.take 3 = passed ∧ s.millisecond.tracks.take 3 = passed ∧
    s.millisecond.raised = [.evaluation, .evaluation] ∧ (held s).millisecond.tracks = s.tracks ∧
    (after .slewStep (held s)).raised = [] := by decide +kernel
/-- A deadline that the gain of a millisecond reaches passes at its value, before the count that follows. -/
theorem test_deadlines_gain_in_millisecond :
    let s := nearing { operating with prt := { operating.prt with slew := 1, slewPhase := 63 } }
    s.prt.counts = 2 ∧ s.millisecond.prt.time = 1000002 ∧
    s.millisecond.tracks.take 2 = passed.take 2 ∧
    (s.millisecond.trackOf ⟨2, 9⟩).map (·.close) = some (some 1030002) ∧
    s.millisecond.raised = [.evaluation, .evaluation, .evaluation] := by decide +kernel
theorem test_deadlines_step :
    let s := withStation (nearing operating) .joining
    let t := after .epochBoundary { s with
      prt := { s.prt with offsets := [⟨2, 60000, .locked⟩] }, raised := [.sampleEvent 0 false] }
    t.prt.time = 1030000 ∧ (t.tracks.take 3).map (·.map (·.state)) = [some .fading, none, some .fading] ∧
    t.rosterState 2 = some .silent ∧
    t.raised = [.tick, .schedulePoint, .sampleEvent 0 false, .evaluation, .evaluation, .evaluation] := by decide +kernel
theorem test_slew_step :
    (after .slewStep { operating with prt := { operating.prt with slew := -1 } }).prt.withheld = 1 := by
  decide
theorem test_trim_step :
    (after .trimStep { operating with prt := { operating.prt with trim := 1 } }).prt.time = 1000001 := by
  decide +kernel
theorem test_schedule_point :
    (after .schedulePoint operating).nq.entries = [entry .presence 4 0] := by decide

/-! ### The hypotheses of the statements are met

Each theorem gives states and operands that meet the hypotheses of the statement it is named for, a
conjunct or a theorem for each clause. -/

/-! Queue states -/

/-- What makes the queue invariant hold of a queue with no holdoff running. -/
theorem queueInv_of {s : State} (he : EntriesOk s.nq.entries) (hu : UrgencyOrder s.nq.entries)
    (hf : ∀ e ∈ s.nq.entries, (e.inFlight = true ↔ s.qlc.inFlight = some e.key))
    (hk : s.qlc.inFlight = none ∨ ∃ e ∈ s.nq.entries, s.qlc.inFlight = some e.key)
    (hh : s.nq.held = none ∨ ∃ h, s.nq.held = some h ∧ (s.qlc.inFlight = some h.key ∧
      h.inFlight = false ∧ h.cls ≤ 4 ∧ h.attempts ≤ 5) ∧ h.order < s.nq.nextOrder ∧
      h.steps ≤ s.nq.steps ∧ ∀ e ∈ s.nq.entries, e.order ≠ h.order)
    (ho : (s.nq.entries.map (·.order)).Nodup ∧
      ∀ e ∈ s.nq.entries, e.order < s.nq.nextOrder ∧ e.steps ≤ s.nq.steps)
    (hold : s.qlc.holdoff = none) (hb : s.qlc.inFlight.isSome = true → s.qlc.busy = true)
    (ha : s.active = true ∨ s.qlc.inFlight = none) (hc : CountersOk s.qlc) : QueueInv s := by
  refine ⟨he, hu, ⟨hf, ?_, ?_⟩, ⟨by simp [hold], hb, fun h => ⟨hold, ?_⟩⟩, ⟨ho.1, ho.2, ?_⟩, hc⟩
  · intro k h
    rcases hk with hk | ⟨e, he, hk⟩
    · simp [hk] at h
    · exact ⟨e, he, by simpa [hk] using h⟩
  · intro h e
    rcases hh with hh | ⟨h', hh, h1, _⟩
    · simp [hh] at e
    · obtain rfl : h' = h := by simpa [hh] using e
      exact h1
  · rcases ha with ha | ha
    · simp [ha] at h
    · exact ha
  · intro h e
    rcases hh with hh | ⟨h', hh, _, h2⟩
    · simp [hh] at e
    · obtain rfl : h' = h := by simpa [hh] using e
      exact h2

/-- The same of a queue none of whose entries is in flight. -/
theorem queueInv_still {s : State} (he : EntriesOk s.nq.entries) (hu : UrgencyOrder s.nq.entries)
    (hf : ∀ e ∈ s.nq.entries, e.inFlight = false) (hk : s.qlc.inFlight = none) (hh : s.nq.held = none)
    (ho : (s.nq.entries.map (·.order)).Nodup ∧
      ∀ e ∈ s.nq.entries, e.order < s.nq.nextOrder ∧ e.steps ≤ s.nq.steps)
    (hold : s.qlc.holdoff = none) (hc : CountersOk s.qlc) : QueueInv s :=
  queueInv_of he hu (fun e h => by simp [hf e h, hk]) (.inl hk) (.inl hh) ho hold (by simp [hk])
    (.inr hk) hc

theorem counters_operating : CountersOk operating.qlc := by unfold CountersOk; decide

/-- The queue invariant of a state whose queue is empty. -/
theorem queueInv_empty {s : State} (h : s.nq = Nq.empty) (hk : s.qlc.inFlight = none)
    (hold : s.qlc.holdoff = none) (hc : CountersOk s.qlc) : QueueInv s := by
  refine queueInv_still ?_ ?_ ?_ hk ?_ ?_ hold hc <;>
    simp [EntriesOk, UrgencyOrder, h, Nq.empty]

theorem queueInv_operating : QueueInv operating := queueInv_empty rfl rfl rfl counters_operating

theorem queueInv_idleLine : QueueInv idleLine := queueInv_empty rfl rfl rfl counters_operating

theorem queueInv_reset : QueueInv State.reset := queueInv_empty rfl rfl rfl (by unfold CountersOk; decide)

theorem witness_IdleCountsOne (n : Nat) (h : n ≤ 1) :
    let s := { operating with prt := { operating.prt with withheld := n } }
    s.pending = [] ∧ s.raised = [] ∧ s.dueDeadline = none ∧ s.prt.slew = 0 ∧ s.prt.trim = 0 ∧
      (s.prt.withheld = 0 ∨ s.prt.withheld = 1) ∧ s.pins.rstLow = false ∧
      (held s).dueDeadline = none ∧ (held s).pins.rstLow = true := by
  have h : n = 0 ∨ n = 1 := by omega
  rcases h with rfl | rfl <;> decide

/-- `operating` at common time `t`. -/
def atTime (t : Time) : State := { operating with prt := { operating.prt with time := t } }

theorem witness_IdleCountsOne_events :
    (atTime 1007999).millisecond.raised = [.tick, .epochBoundary] ∧
    (atTime 1008199).millisecond.raised = [.schedulePoint] ∧
    { operating with sfe := { operating.sfe with phase := 249 } }.millisecond.raised =
      [.sampleEvent 0 false] ∧
    { operating with
      pins := { operating.pins with suppr := true, ack := true }
      sfe := { operating.sfe with supprFilter := 9, ackFilter := 8 } }.millisecond.raised =
      [.supprTransition true] ∧
    { windowState with scs := { windowState.scs with windowTimer := some 29999 } }.millisecond.raised =
      [.windowExpiry] ∧
    (counting.millisecond).raised = [] ∧
    { counting with qlc := { counting.qlc with quiet := 158 } }.millisecond.raised =
      [.holdoffExpiry 161] ∧
    { operating with qlc := { operating.qlc with idleIn := 96 } }.millisecond.raised = [.lineIdle] := by
  decide +kernel

/-- A slew and a trim under way, at the milliseconds before they act and at those where they do. -/
def correcting (slew trim : Int) (slewPhase trimPhase withheld : Nat) : State :=
  { operating with prt := { operating.prt with
      slew := slew, trim := trim, slewPhase := slewPhase, trimPhase := trimPhase, withheld := withheld } }

theorem witness_IdleCountsOne_corrections :
    (correcting 8 64 63 1023 0).dueDeadline = none ∧ (correcting 8 64 63 1023 0).raised = [] ∧
    (correcting 8 64 63 1023 0).prt.counts = 3 ∧ (correcting 8 64 62 1022 0).prt.counts = 1 ∧
    (correcting (-8) (-1) 63 65535 0).prt.owes = 2 ∧ (correcting (-8) (-1) 63 65534 0).prt.owes = 1 ∧
    (correcting (-8) 64 63 1023 0).prt.counts = 1 ∧ (correcting (-8) 64 63 1023 0).prt.owes = 1 ∧
    (correcting 8 0 63 0 0).millisecond.prt = (correcting 8 0 63 0 0).prt.afterMs 0 ∧
    (correcting 8 0 63 0 0).millisecond.prt.time = 1000002 ∧
    (correcting 0 (-64) 0 1023 0).millisecond.prt.time = 1000000 := by decide +kernel

/-- The gained count of a millisecond reaches the epoch boundary and its tick, which the count alone would not. -/
theorem witness_IdleCountsOne_gain :
    let s := { correcting 8 0 63 0 0 with prt := { (correcting 8 0 63 0 0).prt with time := 1007998 } }
    s.millisecond.raised = [.tick, .epochBoundary] ∧ (atTime 1007998).millisecond.raised = [] := by decide +kernel

theorem witness_HeldTakesNothing :
    (held operating).pins.rstLow = true ∧ actsWhileHeld .tick = false ∧
    actsWhileHeld (.frameReceived []) = false := by decide

theorem witness_WindowEnds :
    windowState.pins.rstLow = false ∧ windowState.portOpen = true ∧ windowState.scs.station = .window ∧
    windowState.scs.busy = .clear ∧ windowState.store.valid = true ∧
    stationPresent windowState.tables windowState.scs.own = true ∧
    stationPresent windowState.tables 32 = false ∧ State.reset.scs.station = .window ∧
    State.reset.store.valid = false ∧ State.reset.pins.rstLow = false ∧
    setupState.scs.station ≠ .window ∧ setupState.pins.rstLow = false := by decide

theorem witness_CommandsTurnedAway :
    setupState.portOpen = true ∧ setupState.scs.busy = .clear ∧
    setupState.scs.station ∉ [StationState.window] ∧ (withBusy setupState .commit).scs.busy ≠ .clear ∧
    namesCommand 0 = false ∧ namesCommand 9 = false := by decide

theorem witness_BufferWritten :
    setupState.portOpen = true ∧ setupState.scs.busy = .clear ∧ setupState.scs.buffer.wf = true ∧
    setupState.scs.entryPtr ≤ 15 ∧ setupState.scs.station = .setup ∧ State.reset.scs.busy = .clear ∧
    State.reset.scs.buffer.wf = true ∧ State.reset.scs.station ≠ .setup := by decide

theorem witness_TableSelectLoads :
    setupState.portOpen = true ∧ setupState.scs.busy = .clear ∧
    (0x2B : Byte).toNat % 16 < tablePages ((0x2B : Byte).toNat / 16) ∧
    ¬(0x2C : Byte).toNat % 16 < tablePages ((0x2C : Byte).toNat / 16) := by decide

theorem witness_EntryDataRead :
    setupState.portOpen = true ∧ setupState.scs.entryPtr ≤ 15 ∧
    setupState.scs.busy ≠ .programming ∧ (withBusy setupState .programming).scs.busy = .programming := by
  decide

theorem witness_CommitCopies :
    setupState.pins.rstLow = false ∧ setupState.portOpen = true ∧ setupState.tables.wf = true ∧
    setupState.scs.busy = .clear ∧
    setupState.scs.station = .setup ∧ (withBusy setupState .commit).scs.busy = .commit ∧
    setupState.scs.busy ≠ .commit := by decide

theorem witness_ExpectedChecksumWritten :
    setupState.portOpen = true ∧ setupState.scs.busy ≠ .programming ∧
    (withBusy setupState .programming).scs.busy = .programming := by decide

theorem witness_WritesIgnored :
    (1 : BitVec 7).toNat ∉ [3, 5, 6, 7, 8, 9, 16] ∧ (127 : BitVec 7).toNat ∉ [3, 5, 6, 7, 8, 9, 16] ∧
    (withBusy setupState .programming).scs.busy = .programming ∧ (5 : BitVec 7).toNat ≠ 3 ∧
    (withBusy setupState .commit).scs.busy = .commit ∧ (7 : BitVec 7).toNat ∈ [5, 6, 7] ∧
    (held setupState).portOpen = false ∧
    { setupState with scs := { setupState.scs with sselSeen := false } }.portOpen = false ∧
    setupState.pins.sselHigh = true := by decide

/-- R195: index bytes and data bytes spell their rows. -/
theorem witness_WritesIgnored_rows :
    decodeTransaction 0x03 0x01 = some .hold ∧ decodeTransaction 0x03 0x06 = some .clearFaults ∧
    decodeTransaction 0x03 0x09 = some (.unknownCommand 9) ∧
    decodeTransaction 0x05 0x1A = some (.tableSelectWrite 0x1A) ∧
    decodeTransaction 0x87 0 = some .entryDataRead ∧ decodeTransaction 0x91 0 = some .viewData ∧
    decodeTransaction 0x81 0 = none ∧ 128 ≤ (0x81 : Byte).toNat ∧ (0x7F : Byte).toNat < 128 ∧
    decodeTransaction 0x7F 5 = some (.registerWriteIgnored 0x7F 5) := by decide

theorem witness_StartDecides :
    setupState.portOpen = true ∧ setupState.scs.busy = .clear ∧ setupState.scs.station = .setup ∧
    validate [] 1 = some ⟨.range, 0, 0⟩ ∧
    validate setupState.tables setupState.scs.own = none ∧
    tableChecksum setupState.tables = setupState.scs.expected ∧
    tableChecksum setupState.tables ≠ tableChecksum setupState.tables + 1 := by
  refine ⟨rfl, rfl, rfl, by decide +kernel, test_start_passes, by dsimp only [setupState], ?_⟩
  generalize tableChecksum setupState.tables = x
  intro h
  have h := congrArg BitVec.toNat h
  rw [BitVec.toNat_add] at h
  have := x.isLt
  have h1 : (1 : BitVec 16).toNat = 1 := rfl
  omega

theorem witness_ValidTables :
    (site []).inRange = false ∧ validate tables 1 = none ∧ 1 < (site tables).zoneCount ∧
    (zoneRec tables 1).present = true ∧ (zoneRec tables 1).kind.mirrors = true ∧
    (zoneRec tables 0).kind.computes = true ∧ 0 < (site tables).laneCount ∧
    (site (tables.write 200 9)).inRange = true ∧
    stationPresent (tables.write 200 9) 1 = true ∧ (stationRec (tables.write 200 9) 1).inRange = true ∧
    stationPresent (tables.write 200 9) 2 = true ∧ (stationRec (tables.write 200 9) 2).inRange = false ∧
    stationPresent tables 3 = false := by decide

/-- Every check passes: the codes and positions of the first check that fails are asked of tables like these. -/
theorem tables_good :
    SiteGood tables ∧ (∀ i, i < (site tables).laneCount → LaneGood tables i) ∧
    ∀ i, i < (site tables).zoneCount → (zoneRec tables i).present = true → ZoneGood tables i := by
  have hs : (site tables).laneCount = 1 ∧ (site tables).zoneCount = 2 := by decide
  refine ⟨⟨by decide, fun n h => ?_⟩, fun i hi => ?_, fun i hi _ => ?_⟩
  · have : n = 1 ∨ n = 2 := by
      have hn : n ≤ 32 := by
        by_cases hn : n ≤ 32
        · exact hn
        · simp [stationPresent, hn] at h
      revert h
      clear hs
      revert n
      decide
    rcases this with rfl | rfl <;> decide
  · obtain rfl : i = 0 := by omega
    unfold LaneGood
    decide
  · have : i = 0 ∨ i = 1 := by omega
    rcases this with rfl | rfl <;> unfold ZoneGood zoneFaults ChainGoesOn <;>
      simp only [List.forall_mem_cons, List.not_mem_nil, IsEmpty.forall_iff, implies_true, and_true] <;>
      decide

/-- A lane from a station to itself, and leads out of order: the checks before pass. -/
theorem witness_ValidTables_codes :
    (laneRec (tables.write 417 2) 0).inRange = true ∧ ¬LaneGood (tables.write 417 2) 0 ∧
    ∃ before fails after,
      zoneFaults (tables.write 1582 200) 0 = before ++ (fails, .leadOrder) :: after ∧
      (∀ x ∈ before, ¬x.1) ∧ fails := by
  refine ⟨by decide, by unfold LaneGood; decide, (zoneFaults (tables.write 1582 200) 0).take 2, _,
    (zoneFaults (tables.write 1582 200) 0).drop 3, rfl, ?_, ?_⟩
  · unfold zoneFaults
    simp only [List.take, List.forall_mem_cons, List.not_mem_nil, IsEmpty.forall_iff, implies_true, and_true]
    decide
  · decide

/-- The part in PROGRAMMING at a stage. -/
def programming (stage : ProgStage) (retried : Bool) : State :=
  (setupState.beginProgramming 5).setProg ⟨stage, retried, 5⟩

theorem witness_StorePageDecides (retried : Bool) (k : Nat) (h : k = 0 ∨ k = 17) :
    (programming (.page k) retried).pins.rstLow = false ∧
    (programming (.page k) retried).scs.station = .programming ∧
    (programming (.page k) retried).scs.prog = some ⟨.page k, retried, 5⟩ ∧ k < 18 ∧
    ∃ table page, pageOrder[k]? = some (table, page) ∧
      [] ≠ (programming (.page k) retried).tables.readBlock (pageAddr table page) (pageLen table) := by
  rcases h with rfl | rfl
  · refine ⟨rfl, rfl, rfl, by decide, 0, 0, rfl, fun e => ?_⟩
    have e := congrArg List.length e
    rw [Memory.readBlock_length] at e
    exact absurd e (by decide)
  · refine ⟨rfl, rfl, rfl, by decide, 3, 2, rfl, fun e => ?_⟩
    have e := congrArg List.length e
    rw [Memory.readBlock_length] at e
    exact absurd e (by decide)

theorem witness_StoreHeaderDecides (retried : Bool) :
    (programming .header retried).pins.rstLow = false ∧
    (programming .header retried).scs.station = .programming ∧
    (programming .header retried).scs.prog = some ⟨.header, retried, 5⟩ ∧
    (true = true ∧ (5 : Word16) = 5) ∧ ¬(false = true ∧ (5 : Word16) = 5) :=
  ⟨rfl, rfl, rfl, by decide, by decide⟩

theorem witness_RestartRejoins :
    operating.portOpen = true ∧ operating.scs.busy = .clear ∧ operating.scs.station = .operating ∧
    (withStation operating .joining).scs.station = .joining := by decide

/-- R104: zone 0 is the mirror source at station 2, and station 1 has none. -/
theorem witness_RestartRejoins_sources :
    IsMirrorSource tables 2 0 ∧ ¬IsMirrorSource tables 1 0 ∧
    (zevSet tables 2).received = [receivedSet 0] ∧ (zevSet tables 1).received = [] := by
  unfold IsMirrorSource
  decide

theorem witness_ClearFaultsClears :
    operating.portOpen = true ∧ operating.scs.busy = .clear ∧ operating.scs.station ≠ .programming := by
  decide

/-- A sample ends with a low run of 19, with seven large changes recorded and an eighth to come, or with a
silent run of 2399 while a peer announces a wind. -/
def darkening : State := { operating with sfe := { operating.sfe with lampLow := 19 } }
def veering : State :=
  { operating with sfe := { operating.sfe with
      vaneRecord := List.replicate 7 true, vanePrev := some 0, sectorTaken := true } }
def stilled : State :=
  let s := withPeer operating .present (some 1023000)
  { s with
    sfe := { s.sfe with silentRun := 2399 }
    prt := { s.prt with roster := s.prt.roster.map fun e =>
      if e.state = .present then { e with announced := some presence } else e } }

theorem witness_ClearFaultsClears_sample :
    darkening.pins.rstLow = false ∧ darkening.sfe.anemoIn = true ∧ darkening.sfe.vaneIn = true ∧
    darkening.scs.healthArm = true ∧ darkening.entryOf .presence = none ∧ darkening.nq.entries.length < 7 ∧
    (after (.sampleEvent 0 false) darkening).scs.faults = { Faults.none with dustLamp := true } ∧
    (after (.sampleEvent 12 false) veering).scs.faults = { Faults.none with vaneErratic := true } ∧
    (after (.sampleEvent 0 false) stilled).scs.faults = { Faults.none with anemoSilent := true } ∧
    (after (.sampleEvent 0 false) operating).scs.faults = operating.scs.faults := by decide +kernel

/-- A channel named by VIEW SELECT, out of service or in. -/
def channelState (c : Channel) (out : Bool) : State :=
  let s := { operating with scs := { operating.scs with view := .channel c } }
  if out then { s with sfe := s.sfe.takeOut c false } else s

theorem witness_ChannelService (c : Channel) :
    (channelState c true).portOpen = true ∧ (channelState c true).scs.busy = .clear ∧
    (channelState c true).scs.view = .channel c ∧ (channelState c true).sfe.inService c = false ∧
    (channelState c false).sfe.inService c = true ∧ (∀ d, operating.scs.view ≠ .channel d) ∧
    operating.scs.station = .operating ∧ operating.portOpen = true ∧
    (withBusy setupState .commit).scs.busy ≠ .clear ∧
    (withBusy setupState .commit).scs.busy ≠ .programming ∧
    (withBusy setupState .commit).portOpen = true := by
  cases c <;>
    exact ⟨rfl, rfl, rfl, rfl, rfl, fun d => by cases d <;> decide, rfl, rfl, by decide, by decide, rfl⟩

theorem witness_ChannelInCompares :
    (channelState .suppr true).scs.view = .channel .suppr ∧ (channelState .suppr true).sfe.supprIn = false ∧
    (channelState .ack true).scs.view = .channel .ack ∧ (channelState .ack true).sfe.ackIn = false ∧
    (channelState .lamp true).scs.view = .channel .lamp ∧ (channelState .lamp true).sfe.lampIn = false ∧
    (channelState .lamp true).portOpen = true ∧ (channelState .lamp true).scs.busy = .clear := by
  decide

theorem witness_ViewRead :
    operating.portOpen = true ∧ (held operating).portOpen = false ∧ operating.scs.busy ≠ .programming ∧
    (withTracks operating [track2]).tracks[0]? = some (some track2) ∧
    (withTracks operating [track2]).tracks[15]? = some none ∧ (0x8F : Byte).toNat = 0x80 + 15 ∧
    (0x80 : Byte).toNat = 0x80 + 0 ∧ 0x20 < (0x21 : Byte).toNat ∧ (0x3F : Byte).toNat < 0x40 ∧
    0xC5 < (0xC6 : Byte).toNat ∧ (withBusy operating .programming).scs.busy = .programming ∧
    (channelState .lamp false).viewBytes[0]? = some 0 ∧
    operating.viewBytes.length ≤ operating.scs.viewOff := by decide

/-- Every kind of selection, at the ends of its codes. -/
theorem witness_ViewRead_codes :
    (0x01 : Byte).toNat = operating.scs.own ∧ (0x20 : Byte).toNat ≠ operating.scs.own ∧
    operating.rosterOf 0x20 = some (RosterEntry.cleared .absent) ∧ (0x40 : Byte).toNat = 0x40 + 0 ∧
    operating.zev.zones.find? (fun z => decide (z.zone = 0)) = some (zoneSet tables 0) ∧
    (0x6F : Byte).toNat = 0x40 + 47 ∧ (∀ z ∈ operating.zev.zones, z.zone ≠ 47) ∧
    operating.receivedOf 47 = none ∧ (∀ z ∈ (mirroring (mirrorZone true .alarm none)).zev.zones, z.zone ≠ 0) ∧
    (mirroring (mirrorZone true .alarm none)).receivedOf 0 = some (receivedSet 0) ∧
    0x70 ≤ (0x70 : Byte).toNat ∧ (0x7F : Byte).toNat < 0x80 ∧ 0x90 ≤ (0x90 : Byte).toNat ∧
    (0xBF : Byte).toNat < 0xC0 ∧ operating.scs.view = .nothing ∧
    operating.portRead 1 = some 0x05 ∧ operating.portRead 0x12 = some 1 := by decide

theorem witness_PulseCounted : operating.pins.rstLow = false ∧ operating.sfe.anemoCount < 255 ∧
    (gusty .quiet).sfe.anemoCount = 255 := by decide

theorem witness_SampleWind : operating.pins.rstLow = false ∧ operating.sfe.anemoIn = true := by decide

/-- A vane state: accepted sector 0, candidate sector 8. -/
def vaneState (run : Nat) : State :=
  { operating with sfe := { operating.sfe with sectorTaken := true, candidate := some 8, run := run } }

theorem witness_SampleVaneDust :
    (vaneState 3).pins.rstLow = false ∧ (vaneState 3).sfe.vaneIn = true ∧
    (vaneState 3).sfe.sectorTaken = true ∧ (vaneState 3).sfe.run = 3 ∧
    (vaneState 3).sfe.candidate = some (grayDecode 12) ∧ grayDecode 12 ≠ (vaneState 3).sfe.accepted ∧
    (vaneState 2).sfe.run < 3 ∧ (vaneState 3).sfe.candidate ≠ some (grayDecode 1) ∧
    grayDecode 0 = (vaneState 3).sfe.accepted ∧ operating.sfe.sectorTaken = false ∧
    operating.sfe.dustIn = true ∧ operating.sfe.lampIn = true ∧
    (channelState .anemo true).sfe.anemoIn = false ∧ (channelState .vane true).sfe.vaneIn = false ∧
    (channelState .dust true).sfe.dustIn = false ∧ (channelState .lamp true).sfe.lampIn = false := by
  decide

/-- The sample after which a quiet, an arming and an episode state are asked of. -/
def sampled (s : State) : State := after (.sampleEvent 0 true) s

/-- A sample at which SUPPR is active (low), one at which it is not, and the onset that clears the latch. -/
theorem witness_SampleVaneDust_latch :
    operating.sfe.supprLevel = operating.ownRec.supprHigh ∧ (sampled operating).sfe.latch = true ∧
    (sampled { operating with sfe := { operating.sfe with supprLevel := true } }).sfe.latch = false ∧
    operating.gdu.mode ≠ .arming ∧ (gusty .arming).gdu.mode = .arming ∧
    (sampled (gusty .arming)).sfe.latch = false := by decide +kernel

theorem witness_LinesRecognised :
    operating.pins.rstLow = false ∧ operating.sfe.supprIn = true ∧ true ≠ operating.sfe.supprLevel ∧
    operating.sfe.ackIn = true ∧ true ≠ operating.sfe.ackLevel ∧ false = operating.sfe.ackLevel ∧
    (channelState .ack true).sfe.ackIn = false := by decide

/-- A full window of no pulses: the sample does not qualify. -/
def calm (mode : Mode) : State :=
  { gusty mode with sfe := { (gusty mode).sfe with anemoCount := 0 } }

theorem witness_DetectorFollows :
    (gusty .arming).pins.rstLow = false ∧ (gusty .arming).sfe.anemoIn = true ∧
    (sampled (gusty .arming)).sfe.warming = 240 ∧ (sampled (calm .arming)).sfe.warming = 240 ∧
    ((gusty .arming).gustFloor ≤ (sampled (gusty .arming)).sfe.g3 ∧
      (gusty .arming).onsetRatio * (sampled (gusty .arming)).sfe.s60.getD 0 ≤
        16 * (sampled (gusty .arming)).sfe.g3) ∧
    ¬(calm .arming).gustFloor ≤ (sampled (calm .arming)).sfe.g3 ∧
    (channelState .anemo true).sfe.anemoIn = false ∧ (sampled operating).sfe.warming < 240 ∧
    (gusty .notReady).gdu.mode = .notReady ∧ (gusty .quiet).gdu.mode = .quiet ∧
    (gusty (.episode episode)).gdu.mode = .episode episode ∧ 12 ≤ episode.quiet + 1 ∧
    { episode with quiet := 10 }.quiet + 1 < 12 := by decide +kernel

/-- A gust at sector 8 with the tracks `l` in the table. -/
def gustyAt8 (mode : Mode) (l : List Track) : State :=
  let s := gusty mode
  { withTracks s l with sfe := { s.sfe with accepted := 8 } }

/-- Sixteen confirmed tracks that no gust at sector 8 joins. -/
def blocking : List Track :=
  (List.range 16).map fun k => ({ confirmedTrack with id := ⟨2, k⟩, sector := 2 } : Track)

/-- An episode reported under the own track. -/
def reported : Episode :=
  { episode with reporting := true, track := some ⟨1, 0⟩, recorded := true, trusted := true, quiet := 0 }

/-- The onset that joins a track, the one that opens its own under the first free sequence, the one that
finds no place, and the one that is not reported. -/
theorem witness_DetectorFollows_onset :
    TracksInv (gustyAt8 .arming [track2]) ∧ (gustyAt8 .arming [track2]).associate 8 1000000 = some ⟨2, 7⟩ ∧
    (gustyAt8 .arming [track2]).entryOf (.sighting ⟨2, 7⟩) = none ∧
    TracksInv (gustyAt8 .arming [ownTrack]) ∧ (gustyAt8 .arming [ownTrack]).associate 8 1000000 = none ∧
    ((gustyAt8 .arming [ownTrack]).trackOf ⟨1, (0 + 0) % 256⟩).isSome = true ∧
    (gustyAt8 .arming [ownTrack]).trackOf ⟨1, (0 + 1) % 256⟩ = none ∧
    ¬NoPlace (gustyAt8 .arming [ownTrack]) 1000000 ∧
    NoPlace (gustyAt8 .arming blocking) 1000000 ∧ (gustyAt8 .arming blocking).associate 8 1000000 = none ∧
    (gustyAt8 .arming [track2]).scs.station = .operating ∧
    (withStation (gustyAt8 .arming [track2]) .joining).scs.station ≠ .operating := by
  unfold TracksInv TrackOk NoPlace
  decide +kernel

/-- The update that fires with its track in the table and without it, and one that does not fire. -/
theorem witness_DetectorFollows_update :
    TracksInv (gustyAt8 (.episode reported) [ownTrack]) ∧
    (gustyAt8 (.episode reported) [ownTrack]).trackOf ⟨1, 0⟩ = some ownTrack ∧
    (gustyAt8 (.episode reported) []).trackOf ⟨1, 0⟩ = none ∧
    reported.reporting = true ∧ reported.recorded = true ∧ reported.updates < 3 ∧
    (sampled (gustyAt8 (.episode reported) [ownTrack])).sfe.g3 = 510 ∧
    reported.lastSpeed < 510 ∧ reported.lastSpeed * (100 + (site tables).updateStep) ≤ 510 * 100 ∧
    ¬({ reported with updates := 3 }.updates < 3) ∧ (gustyAt8 .arming []).scs.station ≠ .joining ∧
    (gustyAt8 .arming []).nq.entries.length < 7 := by
  unfold TracksInv TrackOk
  decide +kernel

theorem queueInv_gusty (mode : Mode) (l : List Track) : QueueInv (gustyAt8 mode l) :=
  queueInv_empty rfl rfl rfl counters_operating

theorem witness_AssociationLeast :
    (withTracks operating [track2]).associate 8 1000555 = some ⟨2, 7⟩ ∧
    (withTracks operating [track2]).associate 2 1000555 = none := by decide

/-- R47: a fit, one that deviates by more than the tolerance, one later than the onset, and one with no lane. The
transit of lane 0 at speed 180 is 5555 ms. -/
theorem witness_AssociationLeast_fit :
    min (site tables).laneCount 192 = 1 ∧ LaneCarries (laneRec tables 0) 2 1 8 ∧
    ¬LaneCarries (laneRec tables 0) 3 1 8 ∧ track2.sector ≤ 15 ∧
    fitDeviation tables 1 8 180 sighting2 1000455 = some 100 ∧
    fitDeviation tables 1 8 180 sighting2 1003555 = some 3000 ∧
    fitDeviation tables 1 8 180 sighting2 1003556 = none ∧
    fitDeviation tables 1 8 180 { sighting2 with time := 1000456 } 1000455 = none ∧
    earlier 1000455 1000456 = true ∧ earlier 1000455 1000455 = false ∧
    fitDeviation tables 1 8 180 { sighting2 with station := 3 } 1000555 = none ∧
    trackDeviation tables 1 track2 1000455 = some 100 ∧
    track2.candidate 1 9 = true ∧ track2.candidate 1 10 = false ∧ ownTrack.candidate 1 8 = false := by
  unfold LaneCarries
  decide

theorem sightingInRange_new : SightingInRange 2 newNotice := by
  refine ⟨by decide, by decide, by decide, fun _ => rfl, by decide, by decide, ?_, by decide⟩
  intro d h
  cases h

theorem witness_SightingFrameReads : 1 ≤ 2 ∧ 2 ≤ 32 ∧ SightingInRange 2 newNotice :=
  ⟨by decide, by decide, sightingInRange_new⟩

theorem announcedInRange_presence : AnnouncedInRange presence := by
  refine ⟨by decide, by decide, ?_, by decide, by decide⟩
  intro v h
  cases h
  decide

theorem witness_PresenceFrameReads : 1 ≤ 2 ∧ 2 ≤ 32 ∧ AnnouncedInRange presence :=
  ⟨by decide, by decide, announcedInRange_presence⟩

theorem frameArrives {s : State} (h : s.pins.rstLow = false) (frame : List Byte) :
    FrameArrives (receiving s) (record []) frame frame := ⟨h, rfl, rfl⟩

theorem frameArrives_part {s : State} (h : s.pins.rstLow = false) (frame : List Byte) (n : Nat) :
    FrameArrives (receivingPart s (frame.take n)) (record (frame.take n)) (frame.drop n) frame :=
  ⟨h, rfl, List.take_append_drop n frame⟩

theorem fromPeer_operating : FromPeer (receiving operating) 2 := by unfold FromPeer; decide

/-- The frames of the NEW of station 2, and of a JOIN and an UPDATE of it. -/
def frameOf2 (p : SightingNotice) : List Byte := frameBytes .sighting 2 999900 (sightingBytes p)
def joinNotice : SightingNotice := { newNotice with form := .join }
def updateNotice : SightingNotice := { newNotice with form := .update, updates := 1 }

theorem witness_PeerNewTracked :
    FrameArrives (receiving operating) (record []) (frameOf2 newNotice) (frameOf2 newNotice) ∧
    FrameArrives (receivingPart operating ((frameOf2 newNotice).take 9))
      (record ((frameOf2 newNotice).take 9)) ((frameOf2 newNotice).drop 9) (frameOf2 newNotice) ∧
    FromPeer (receiving operating) 2 ∧ SightingInRange 2 newNotice ∧ newNotice.form = .new ∧
    (receiving operating).stale newNotice.time = false ∧
    (receiving operating).trackOf newNotice.id = none ∧ none ∈ (receiving operating).tracks :=
  ⟨frameArrives rfl _, frameArrives_part rfl _ 9, fromPeer_operating, sightingInRange_new, by decide,
    by decide, by decide, by decide⟩

/-- A table full of tracks like `t`. -/
def fullTable (t : Track) : State :=
  withTracks operating ((List.range 16).map fun k => { t with id := ⟨2, 100 + k⟩ })

/-- A full table with a victim, and one with none, at the boundary of ages too. -/
theorem witness_PeerNewTracked_full :
    FromPeer (receiving (fullTable fadingTrack)) 2 ∧ TracksInv (receiving (fullTable fadingTrack)) ∧
    (receiving (fullTable fadingTrack)).trackOf ⟨2, 7⟩ = none ∧
    none ∉ (receiving (fullTable fadingTrack)).tracks ∧
    ((victim (liveTracks (fullTable fadingTrack).tracks) 995000).map (·.id)) = some ⟨2, 100⟩ ∧
    ¬NoPlace (receiving (fullTable track2)) 995001 ∧ NoPlace (receiving (fullTable track2)) 995000 ∧
    NoPlace (receiving (fullTable confirmedTrack)) 995000 ∧
    ¬NoPlace (receiving (fullTable (placeholderTrack [sighting2]))) 995000 := by
  unfold TracksInv TrackOk FromPeer NoPlace
  decide +kernel

/-- A placeholder that holds the sender's sighting, and one that does not. -/
theorem witness_PeerNewTracked_fill :
    TracksInv (receiving (withTracks operating [placeholderTrack [sighting2]])) ∧
    TracksInv (receiving (withTracks operating [placeholderTrack [ownSighting]])) ∧
    (receiving (withTracks operating [placeholderTrack [ownSighting]])).trackOf ⟨2, 7⟩ =
      some (placeholderTrack [ownSighting]) ∧
    sightingOf [ownSighting] 2 = none ∧ sightingOf [sighting2] 2 = some sighting2 := by
  unfold TracksInv TrackOk
  decide +kernel

theorem witness_PeerNewTracked_victim :
    ((liveTracks (fullTable fadingTrack).tracks).map (·.id)).Nodup ∧ 0 ≤ timeDiff 995000 0 ∧
    (∀ t ∈ liveTracks (fullTable fadingTrack).tracks, 0 ≤ timeDiff t.last 0) := by decide +kernel

/-- A frame begun at a station that holds the track of it and hears its sender. -/
def knowing : State := receiving (withPeer (withTracks operating [track2]) .present (some 1023000))

theorem witness_DuplicateNewRejected :
    FrameArrives knowing (record []) (frameOf2 newNotice) (frameOf2 newNotice) ∧
    stationPresent knowing.tables 2 = true ∧ 2 ≠ knowing.scs.own ∧
    knowing.rosterState 2 = some .present ∧ SightingInRange 2 newNotice ∧ newNotice.form = .new ∧
    knowing.stale newNotice.time = false ∧ knowing.trackOf newNotice.id = some track2 ∧
    track2.placeholder = false :=
  ⟨frameArrives rfl _, by decide, by decide, by decide, sightingInRange_new, by decide, by decide,
    by decide, by decide⟩

/-- A cleared roster meets the roster invariant. -/
theorem rosterOk_cleared {s : State} (h : s.prt.roster = clearedRoster s.scs.own)
    (ho : 1 ≤ s.scs.own ∧ s.scs.own ≤ 32) : RosterOk s := by
  refine ⟨ho.1, ho.2, by simp [h, clearedRoster], fun k e he => ?_⟩
  rw [h, clearedRoster, List.getElem?_map] at he
  simp only [Option.map_eq_some_iff, List.getElem?_eq_some_iff, List.length_range] at he
  obtain ⟨j, ⟨_, hj⟩, rfl⟩ := he
  simp only [List.getElem_range] at hj
  subst hj
  by_cases ho : k + 1 = s.scs.own <;> simp [RosterEntryOk, RosterEntry.cleared, ho]

theorem frameEnds_whole {s : State} (h : s.pins.rstLow = false) {frame : List Byte}
    (hw : frameWhole frame = true) :
    FrameEnds (receiving s) (record []) frame (frameChars frame) :=
  ⟨frameArrives h frame, rfl, hw⟩

/-- A wrong CRC byte; an absent sender; the own number; a sector of 16; a time too old. -/
def wrongCrc : List Byte := (frameOf2 newNotice).take 21 ++ [0]
def fromAbsent : List Byte := frameBytes .zone 3 999900 [0, 1]
def fromOwn : List Byte := frameBytes .zone 1 999900 [0, 1]
def badField : List Byte := frameOf2 { newNotice with sector := 16 }
def tooOld : List Byte := frameOf2 { newNotice with time := 939999 }

theorem witness_DuplicateNewRejected_checks :
    RosterOk (receiving operating) ∧ frameWhole badForm = true ∧ CrcRight (frameChars badForm) ∧
    ¬FormRight (frameChars badForm) ∧ (frameWhole wrongCrc = true ∧ ¬CrcRight (frameChars wrongCrc)) ∧ frameWhole [0x31, 1, 2] = true ∧
    ¬CrcRight (frameChars [0x31, 1, 2]) ∧
    (frameWhole fromAbsent = true ∧ CrcRight (frameChars fromAbsent) ∧ FormRight (frameChars fromAbsent) ∧
      byteAt (frameChars fromAbsent) 2 = 3 ∧ stationPresent operating.tables 3 = false) ∧
    (frameWhole fromOwn = true ∧ CrcRight (frameChars fromOwn) ∧ FormRight (frameChars fromOwn) ∧
      byteAt (frameChars fromOwn) 2 = operating.scs.own ∧
      operating.scs.faults.duplicateStation = false) := by
  refine ⟨rosterOk_cleared rfl (by decide), ?_⟩
  unfold CrcRight FormRight
  decide +kernel

theorem witness_DuplicateNewRejected_peer :
    (frameWhole badField = true ∧ CrcRight (frameChars badField) ∧ FormRight (frameChars badField) ∧
      ¬FieldsRight (frameChars badField)) ∧
    (frameWhole tooOld = true ∧ CrcRight (frameChars tooOld) ∧ FormRight (frameChars tooOld) ∧
      FieldsRight (frameChars tooOld) ∧ TimeStale operating (frameChars tooOld)) ∧
    FieldsRight (frameChars (frameOf2 newNotice)) ∧ ¬TimeStale operating (frameChars (frameOf2 newNotice)) ∧
    (withPeer operating .mismatch (some 1023000)).rosterState 2 = some .mismatch ∧
    operating.rosterState 2 = some .absent := by
  refine ⟨⟨by decide +kernel, ?_, ?_, ?_⟩, ⟨by decide +kernel, ?_, ?_, ?_, ?_⟩, ?_, ?_, by decide,
    by decide⟩ <;>
    (first | unfold CrcRight | unfold FormRight | unfold FieldsRight | unfold TimeStale) <;>
    decide +kernel

/-- Six sightings of stations 10 to 15, a second apart. -/
def sixSightings : List Sighting :=
  (List.range 6).map fun k => { sighting2 with station := 10 + k, time := ms (990000 + 1000 * k) }
def sixTrack : Track := { track2 with sightings := sixSightings }

theorem witness_JoinPlaced :
    TrackOk track2 ∧ TrackOk sixTrack ∧
    -- a seventh sighting first, second and last in order, and one that replaces the held one
    (sixTrack.joined { sighting2 with time := 989999 }).sightings.map (·.station) =
      [2, 11, 12, 13, 14, 15] ∧
    (sixTrack.joined { sighting2 with time := 990500 }).sightings.map (·.station) =
      [10, 11, 12, 13, 14, 15] ∧
    (sixTrack.joined { sighting2 with time := 999000 }).sightings.map (·.station) =
      [10, 12, 13, 14, 15, 2] ∧
    (sixTrack.joined { sighting2 with station := 12, time := 999000 }).sightings.map (·.station) =
      [10, 11, 13, 14, 15, 12] := by
  unfold TrackOk
  decide

theorem sightingInRange_other : SightingInRange 2 joinNotice ∧ SightingInRange 2 updateNotice := by
  have h := sightingInRange_new
  obtain ⟨h1, h2, h3, _, h5, h6, h7, _⟩ := h
  exact ⟨⟨h1, h2, h3, (fun h => by cases h), h5, h6, h7, by decide⟩,
    ⟨h1, h2, h3, (fun h => by cases h), h5, h6, h7, by decide⟩⟩

theorem witness_JoinPlaced_frames :
    FrameArrives knowing (record []) (frameOf2 joinNotice) (frameOf2 joinNotice) ∧
    FrameArrives knowing (record []) (frameOf2 updateNotice) (frameOf2 updateNotice) ∧
    SightingInRange 2 joinNotice ∧ SightingInRange 2 updateNotice ∧ joinNotice.form ≠ .new ∧
    updateNotice.form ≠ .new :=
  ⟨frameArrives rfl _, frameArrives rfl _, sightingInRange_other.1, sightingInRange_other.2, by decide,
    by decide⟩

theorem witness_JoinPlaced_states :
    FromPeer knowing 2 ∧ TracksInv knowing ∧ knowing.stale 995000 = false ∧
    knowing.trackOf ⟨2, 7⟩ = some track2 ∧ (sightingOf track2.sightings 2).isSome = true ∧
    sightingOf (placeholderTrack [ownSighting]).sightings 2 = none := by
  unfold TracksInv TrackOk FromPeer
  decide +kernel

theorem witness_JoinPlaced_unheld :
    TracksInv (receiving operating) ∧ (receiving operating).trackOf ⟨2, 7⟩ = none ∧
    ¬NoPlace (receiving operating) 995000 ∧ TracksInv (receiving (fullTable confirmedTrack)) ∧
    (receiving (fullTable confirmedTrack)).trackOf ⟨2, 7⟩ = none ∧
    NoPlace (receiving (fullTable confirmedTrack)) 995000 := by
  unfold TracksInv TrackOk NoPlace
  decide +kernel

/-- A confirmed track in the table. -/
def tracked : State := withTracks operating [confirmedTrack]

theorem witness_ConfirmedStays :
    TracksInv tracked ∧ step { tracked with pending := [.viewData] } = .next (after .viewData tracked) ∧
    TracksInv { tracked with pending := [.viewData] } ∧
    (tracked.trackOf ⟨2, 7⟩).map (·.confirmed) = some true ∧
    ((after .viewData tracked).trackOf ⟨2, 7⟩).map (·.confirmed) = some true := by
  refine ⟨?_, rfl, ?_, by decide, by decide⟩ <;> unfold TracksInv TrackOk <;> decide +kernel

/-- A track whose fade, or whose close deadline, is at `d`. -/
def fadingAt (d : Time) : State :=
  withTracks operating [{ track2 with state := .fading, close := some d }]
def fadesAt (d : Time) : State := withTracks operating [{ track2 with fade := d }]

theorem witness_DeadlinesTaken :
    (fadesAt 1000000).pins.rstLow = false ∧ TracksInv (fadesAt 1000000) ∧ TracksInv (fadesAt 1000001) ∧
    TracksInv (fadingAt 1000000) ∧ TracksInv (fadingAt 1000001) ∧
    (fadesAt 1000000).trackOf ⟨2, 7⟩ = some { track2 with fade := 1000000 } ∧
    reached (fadesAt 1000000).prt.time 1000000 = true ∧
    reached (fadesAt 1000001).prt.time 1000001 = false ∧
    (fadingAt 1000000).trackOf ⟨2, 7⟩ = some { track2 with state := .fading, close := some 1000000 } := by
  refine ⟨rfl, ?_, ?_, ?_, ?_, by decide, by decide, by decide, by decide⟩ <;>
    unfold TracksInv TrackOk <;> decide

/-! Queues of entries -/

/-- The queue invariant of a queue of one entry that waits. -/
theorem queueInv_one {s : State} (n : Notice) (c : Nat) (h : c ≤ 4)
    (he : s.nq = { entries := [entry n c 0], held := none, steps := 0, nextOrder := 1 })
    (hk : s.qlc.inFlight = none) (hold : s.qlc.holdoff = none) (hc : CountersOk s.qlc) : QueueInv s := by
  refine queueInv_still ?_ ?_ ?_ hk ?_ ?_ hold hc <;>
    simp [EntriesOk, UrgencyOrder, he, entry, Config.queueSize, h]

theorem queueInv_waiting (n : Notice) (c : Nat) (h : c ≤ 4) :
    QueueInv (withEntries operating [entry n c 0]) :=
  queueInv_one n c h rfl rfl rfl counters_operating

theorem queueInv_sending (n : Notice) (a : Nat) (h : a ≤ 5) : QueueInv (sending n a) := by
  refine queueInv_of ?_ ?_ ?_ (.inr ?_) (.inl rfl) ?_ rfl (fun _ => rfl) (.inl rfl) counters_operating <;>
    simp [sending, withEntries, EntriesOk, UrgencyOrder, Config.queueSize, entry, Entry.key, h]

theorem queueInv_sendingHeld (n m : Notice) (a : Nat) (h : a ≤ 5) (hm : n.key = m.key) :
    QueueInv (sendingHeld n a m) := by
  refine queueInv_of ?_ ?_ ?_ (.inr ?_) (.inr ⟨entry m 2 1, rfl, ?_⟩) ?_ rfl (fun _ => rfl) (.inl rfl)
    counters_operating <;>
    simp [sendingHeld, sending, withEntries, EntriesOk, UrgencyOrder, Config.queueSize, entry, Entry.key,
      h, hm]

/-- Eight ZONE entries, the first four of class 2. -/
def fullQueue : State :=
  withEntries operating ((List.range 8).map fun k => entry (.zone (10 + k) .watch) (if k < 4 then 2 else 4) k)

theorem queueInv_fullQueue : QueueInv fullQueue := by
  refine queueInv_still ?_ ?_ ?_ rfl rfl ?_ rfl counters_operating
  · unfold EntriesOk; decide
  · unfold UrgencyOrder; decide
  · decide
  · decide

/-- A frame of the own number that comes while an own frame is in flight. -/
theorem witness_DuplicateNewRejected_own :
    QueueInv (receiving (sending .presence 5)) ∧ (receiving (sending .presence 5)).nq.held = none ∧
    (receiving (sending .presence 5)).qlc.inFlight = some .presence ∧
    ((receiving (sending .presence 5)).entryOf .presence).isSome = true :=
  ⟨queueInv_sending .presence 5 (Nat.le_refl 5), rfl, rfl, rfl⟩

/-- An own notice waits for the line, and its track and a peer's stand in the table. -/
def rewriting : State :=
  withEntries (withTracks operating [ownTrack, track2]) [entry (.sighting ownNotice) 1 0]

theorem queueInv_rewriting : QueueInv rewriting :=
  queueInv_one (.sighting ownNotice) 1 (by decide) rfl rfl rfl counters_operating

theorem witness_PreCheckRewrites :
    rewriting.pins.rstLow = false ∧ TracksInv rewriting ∧ QueueInv rewriting ∧
    rewriting.trackOf ⟨2, 7⟩ = some track2 ∧ rewriting.entryOf (.sighting ⟨2, 7⟩) = none ∧
    (rewriting.nq.entries.map fun e => (rewriting.candidateEntry track2 e).isSome) = [true] ∧
    QueueInv (withEntries operating [entry .presence 4 0]) ∧
    operating.candidateEntry track2 (entry .presence 4 0) = none := by
  refine ⟨rfl, ?_, queueInv_rewriting, by decide, by decide, by decide,
    queueInv_waiting _ _ (Nat.le_refl 4), by decide⟩
  unfold TracksInv TrackOk
  decide

/-! Zones -/

theorem witness_EvaluationDemand :
    Instr.tick ∈ [Instr.tick, .evaluation] ∧ operating.pins.rstLow = false ∧ operating.active = true ∧
    (withStation operating .joining).active = true ∧ setupState.active = false ∧
    operating.zev.zones[0]? = some (zoneSet tables 0) ∧
    (zoneRec operating.tables 0).kind.computes = true ∧ (zoneRec operating.tables 0).kind = .computed ∧
    (zoneRec operating.tables 1).kind = .mirror := by decide

theorem witness_EvaluationLevels :
    (operating.zev.zones.map (·.level) = [.clear]) ∧
    -- a fall whose deadline is absent, running, reached
    Level.clear.toNat < Level.watch.toNat ∧ reached 1000000 1000001 = false ∧
    reached 1000000 1000000 = true ∧
    ((after .tick { operating with zev := { operating.zev with
      zones := [{ zoneSet tables 0 with level := .warn, hold := some 1000000 }] } }).zev.zones.map
        (·.level)) = [.watch] ∧
    ((after .tick (mirroring { mirrorZone true .alarm (some 1000000) with level := .warn })).zev.zones.map
      (·.level)) = [.warn] := by decide

theorem witness_EvaluationMirrors :
    (zoneRec (mirroring (mirrorZone true .clear none)).tables 1).kind.mirrors = true ∧
    (zoneRec operating.tables 0).kind.mirrors = false ∧
    (mirroring (mirrorZone false .alarm none)).receivedOf
      (zoneRec (mirroring (mirrorZone false .alarm none)).tables 1).source = some (receivedSet 0) ∧
    ((after .tick (mirroring (mirrorZone false .alarm none))).zev.zones.map (·.lostDeadline)) =
      [some 1120000] ∧
    ((after .tick (mirroring (mirrorZone true .alarm (some 1000000)))).zev.zones.map (·.contribution)) =
      [.warn] ∧
    ((after .tick (mirroring (mirrorZone true .alarm (some 1000001)))).zev.zones.map (·.contribution)) =
      [.alarm] := by decide

/-- Station 2 reads a ZONE frame of station 1. -/
def zoneFrame (zone : Nat) (level : Level) : List Byte :=
  frameBytes .zone 1 999900 [byteOf zone, byteOf level.toNat]
def reporting : State := receiving (mirroring (mirrorZone false .clear none))

theorem witness_EvaluationMirrors_frames (zone : Nat) :
    FrameArrives reporting (record []) (zoneFrame zone .alarm) (zoneFrame zone .alarm) ∧
    FromPeer reporting 1 :=
  ⟨frameArrives rfl _, by unfold FromPeer; decide⟩

/-- A ZONE frame's zone beyond the count, at its last value, absent, of another owner, and of the sender. -/
theorem witness_EvaluationMirrors_zones :
    (site reporting.tables).zoneCount = 2 ∧ zonePresent (reporting.tables.write 1618 0) 1 = false ∧
    zonePresent reporting.tables 1 = true ∧ (zoneRec reporting.tables 1).owner ≠ 1 ∧
    zoneDescribed reporting.tables 0 = true ∧ (zoneRec reporting.tables 0).owner = 1 ∧
    reporting.active = true ∧ reporting.receivedOf 0 = some (receivedSet 0) ∧
    Level.alarm ≠ (receivedSet 0).level ∧ operating.receivedOf 0 = none ∧ setupState.active = false := by
  decide +kernel

theorem witness_AckAcknowledges :
    { operating.sfe with ackPending := true }.ackPending = true ∧ operating.sfe.ackPending = false ∧
    operating.pins.rstLow = false := by decide

/-- A gust on the way to zone 0. -/
def approaching : State :=
  withTracks operating [{ track2 with
    confirmed := true, sightings := [{ sighting2 with time := 996000 }] }]

theorem witness_ZoneNoticePosted :
    Instr.evaluation ∈ [Instr.tick, .evaluation] ∧ approaching.pins.rstLow = false ∧
    approaching.scs.station = .operating ∧ approaching.zev.zones = [zoneSet tables 0] ∧
    approaching.entryOf (.zone 0) = none ∧ approaching.nq.entries.length < 8 ∧
    (after .tick approaching).zev.zones.map (·.level) ≠ [(zoneSet tables 0).level] ∧
    (after .tick operating).zev.zones.map (·.level) = [(zoneSet tables 0).level] := by decide

/-- Two zones whose holds have run out: both drop in one evaluation. -/
def dropping : State :=
  { operating with zev := { operating.zev with zones :=
      [{ zoneSet tables 0 with level := .alarm, hold := some 1000000 },
        { zoneSet tables 1 with level := .warn, hold := some 1000000 }] } }

theorem witness_ZoneNoticePosted_several :
    dropping.scs.station = .operating ∧ (dropping.zev.zones.map (·.zone)).Pairwise (· < ·) ∧
    dropping.nq.entries.length + dropping.zev.zones.length ≤ 8 ∧
    (∀ z ∈ dropping.zev.zones, dropping.entryOf (.zone z.zone) = none) ∧
    (after .tick dropping).zev.zones.map (·.level) = [.warn, .watch] ∧
    (after .tick dropping).nq.entries.map (fun e => (e.notice, e.cls, e.order)) =
      [(.zone 0 .warn, 4, 0), (.zone 1 .watch, 4, 1)] := by decide +kernel

/-- A post for a key that no entry holds, with room, and with a full queue: the last entry gives way to a
class below its own and to no other. -/
theorem witness_ZoneNoticePosted_place :
    QueueInv operating ∧ operating.entryOf .presence = none ∧ operating.nq.entries.length < 8 ∧
    QueueInv fullQueue ∧ fullQueue.entryOf .presence = none ∧ fullQueue.nq.entries.length = 8 ∧
    fullQueue.nq.entries = fullQueue.nq.entries.take 7 ++ entry (.zone 17 .watch) 4 7 :: [] ∧
    (entry (.zone 17 .watch) 4 7).inFlight = false ∧ 3 < (entry (.zone 17 .watch) 4 7).cls ∧
    (entry (.zone 17 .watch) 4 7).cls ≤ 4 :=
  ⟨queueInv_operating, rfl, by decide, queueInv_fullQueue, by decide, by decide, by decide, rfl, by decide,
    by decide⟩

/-- A post folded into the waiting entry of its key, and one held for the entry in flight. -/
theorem witness_ZoneNoticePosted_fold :
    QueueInv (withEntries operating [entry (.sighting updateNotice) 3 0]) ∧
    (withEntries operating [entry (.sighting updateNotice) 3 0]).entryOf (.sighting ⟨2, 7⟩) =
      some (entry (.sighting updateNotice) 3 0) ∧ updateNotice.form = .update ∧ joinNotice.form ≠ .update ∧
    QueueInv (withEntries operating [entry (.zone 0 .watch) 2 0]) ∧ operating.announced 0 = some .clear ∧
    QueueInv (sending (.zone 0 .alarm) 0) ∧ (sending (.zone 0 .alarm) 0).nq.held = none ∧
    QueueInv (sendingHeld (.zone 0 .alarm) 0 (.zone 0 .warn)) ∧
    (sendingHeld (.zone 0 .alarm) 0 (.zone 0 .warn)).nq.held = some (entry (.zone 0 .warn) 2 1) ∧
    QueueInv (sendingHeld (.sighting joinNotice) 0 (.sighting updateNotice)) ∧
    QueueInv (sendingHeld .presence 0 .presence) :=
  ⟨queueInv_waiting _ _ (by decide), by decide, rfl, by decide, queueInv_waiting _ _ (by decide), by decide,
    queueInv_sending _ _ (by decide), rfl, queueInv_sendingHeld _ _ _ (by decide) rfl, rfl,
    queueInv_sendingHeld _ _ _ (by decide) rfl, queueInv_sendingHeld _ _ _ (by decide) rfl⟩

theorem witness_CallsBounded :
    call tables 0 { track2 with confirmed := true, sightings := [{ sighting2 with time := 996000 }] }
      1000000 = some .alarm ∧
    call tables 0 track2 1000000 = some .watch ∧
    (zoneRec tables 0).alarmLead ≤ (zoneRec tables 0).warnLead ∧
    (zoneRec tables 0).warnLead ≤ (zoneRec tables 0).watchLead := by decide

/-- A confirmed gust whose prediction for zone 0 is `eta` ms from 1 000 000. -/
def predicted (eta : Int) (confirmed : Bool) : Track :=
  { track2 with
    confirmed := confirmed
    sightings := [{ sighting2 with time := 1000000 + BitVec.ofInt 32 (eta - 16666) }] }

/-- The calls at the leads of zone 0 (90, 45 and 20 s) and at the end of its hold time (120 s), confirmed or
not, and with a predicate that is false. -/
theorem witness_CallsBounded_leads :
    ([(20000, true), (20001, true), (45000, true), (45001, true), (90000, true), (90001, true),
      (20000, false), (90001, false), (-120000, true), (-120001, true)].map fun x =>
        call tables 0 (predicted x.1 x.2) 1000000) =
      [some .alarm, some .warn, some .warn, some .watch, some .watch, none, some .watch, none, some .alarm,
        none] ∧
    Predicts tables 0 (predicted 20000 true) 1000000 20000 ∧
    Predicts tables 0 (predicted (-120001) true) 1000000 (-120001) ∧
    approaches tables 0 = [{ source := 2, mask := 256, distance := 300 }] ∧
    call tables 0 { predicted 20000 true with sector := 7 } 1000000 = none :=
  ⟨by decide, ⟨⟨2, 256, 300⟩, by decide, by decide, { sighting2 with time := 1003334 }, by decide, by decide⟩,
    ⟨⟨2, 256, 300⟩, by decide, by decide, { sighting2 with time := 863333 }, by decide, by decide⟩, by decide,
    by decide⟩

theorem witness_OutputsShow :
    operating.pins.rstLow = false ∧ operating.boundZone 1 = none ∧
    operating.boundZone 0 = some (zoneSet tables 0) ∧ operating.scs.station = .operating ∧
    (withStation operating .joining).scs.station ≠ .operating ∧
    (withStation operating .joining).boundZone 0 = some (zoneSet tables 0) := by decide +kernel

/-! Queue and line -/

theorem witness_PresenceFolded :
    operating.pins.rstLow = false ∧ QueueInv operating ∧ operating.active = true ∧
    operating.entryOf .presence = none ∧ operating.nq.entries.length < 8 ∧ State.reset.active = false ∧
    QueueInv State.reset ∧ QueueInv (withEntries operating [entry .presence 4 0]) ∧
    (withEntries operating [entry .presence 4 0]).entryOf .presence = some (entry .presence 4 0) ∧
    (entry .presence 4 0).inFlight = false ∧ counting.qlc.holdoff = some ⟨.presence, 161, 0⟩ ∧
    counting.entryOf .presence = some (entry .presence 4 0) ∧ 161 ≤ 255 :=
  ⟨rfl, queueInv_operating, rfl, rfl, by decide, rfl, queueInv_reset,
    queueInv_waiting _ _ (Nat.le_refl 4), by decide, rfl, by decide, by decide, by decide⟩

theorem queueInv_counting : QueueInv counting := by
  have h : counting.nq = (withEntries operating [entry .presence 4 0]).nq := by decide
  have hq : counting.qlc.holdoff = some ⟨.presence, 161, 0⟩ := by decide
  have k := queueInv_waiting .presence 4 (Nat.le_refl 4)
  have hf : counting.qlc.inFlight = none := by decide
  have hb : counting.qlc.busy = false := by decide
  have ha : counting.active = true := by decide
  obtain ⟨k1, k2, k3, k4, k5, k6⟩ := k
  refine ⟨h ▸ k1, h ▸ k2, ⟨?_, by simp [hf], ?_⟩, ⟨fun _ => hb, by simp [hf], by simp [ha]⟩, ?_, ?_⟩
  · rw [h, hf]
    decide
  · rw [h]
    intro x hx
    cases hx
  · unfold OrdersOk at k5 ⊢
    rw [h]
    exact k5
  · unfold CountersOk
    decide

theorem witness_PresenceFolded_start :
    QueueInv counting ∧ counting.pins.rstLow = false ∧
    counting.entryOf .presence = some (entry .presence 4 0) ∧
    counting.qlc.holdoff = some ⟨.presence, 161, 0⟩ :=
  ⟨queueInv_counting, by decide, by decide, by decide⟩

theorem witness_LineAccess :
    QueueInv idleLine ∧ idleLine.pins.rstLow = false ∧ idleLine.qlc.busy = false ∧
    QueueInv (withEntries operating [entry .presence 4 0]) ∧
    (withEntries operating [entry .presence 4 0]).qlc.busy = true ∧
    (withEntries operating [entry .presence 4 0]).qlc.inFlight = none ∧
    (withEntries operating [entry .presence 4 0]).eligible .presence = true ∧
    InUrgencyOrder (withEntries operating [entry .presence 4 0]).nq.entries ∧
    (withEntries operating [entry .presence 4 0]).nq.entries = [] ++ entry .presence 4 0 :: [] ∧
    QueueInv operating ∧ operating.nq.entries = [] ∧ QueueInv (sending .presence 0) ∧
    (sending .presence 0).qlc.inFlight.isSome = true :=
  ⟨queueInv_idleLine, rfl, rfl, queueInv_waiting _ _ (Nat.le_refl 4), rfl, rfl, rfl,
    by unfold InUrgencyOrder; decide, rfl, queueInv_operating, rfl, queueInv_sending _ _ (Nat.zero_le 5), rfl⟩

/-- No record holds a whole frame where the one being read, and the own one, do not. -/
theorem framesOpen_of {s : State} (hr : ∀ r ∈ s.qlc.rx, frameWhole r.chars = false)
    (ho : ∀ r ∈ s.qlc.ownRead, frameWhole r.chars = false) : FramesOpen s :=
  fun r h => h.elim (hr r) (ho r)

/-- A frame being read, in part; none. -/
theorem witness_LineAccess_frames :
    (receiving operating).qlc.rx = some (record []) ∧ frameWhole ((record []).chars ++ [0x31]) = false ∧
    operating.qlc.rx = none ∧ QueueInv (receiving operating) ∧ (receiving operating).qlc.busy = true ∧
    (receiving operating).qlc.inFlight = none ∧ FramesOpen (receiving operating) ∧ FramesOpen operating :=
  ⟨rfl, by decide, rfl, queueInv_operating, rfl, rfl, framesOpen_of (by decide) (by decide),
    framesOpen_of (by decide) (by decide)⟩

/-- A holdoff running with a notice selected and with none, and none running with a notice selected, on an IDLE
line; none on a BUSY line. -/
theorem witness_LineAccess_follow :
    counting.qlc.holdoff = some ⟨.presence, 161, 0⟩ ∧ IsSelected counting (entry .presence 4 0) ∧
    (∀ e, ¬IsSelected (counting.mapNq fun q => { q with entries := [] }) e) ∧
    idleLine.qlc.holdoff = none ∧ idleLine.qlc.busy = false ∧
    IsSelected (withEntries idleLine [entry .presence 4 0]) (entry .presence 4 0) ∧
    operating.qlc.busy = true ∧ operating.active = true := by
  refine ⟨by decide, ⟨by decide, by decide, [], [], by decide, by simp⟩, fun e h => ?_, rfl, rfl,
    ⟨by decide, by decide, [], [], by decide, by simp⟩, rfl, rfl⟩
  obtain ⟨-, -, before, after, h, -⟩ := h
  exact absurd h (by simp [State.mapNq])

/-- A notice waits with its holdoff running. -/
def countingFor (n : Notice) : State := after .lineIdle (withEntries operating [entry n 0 0])

theorem witness_HoldoffRunsOut :
    (countingFor .presence).qlc.holdoff = some ⟨.presence, 1, 0⟩ ∧ 1 ≤ 255 ∧
    (countingFor .presence).entryOf .presence = some (entry .presence 0 0) ∧
    (countingFor (.zone 0 .alarm)).qlc.holdoff = some ⟨.zone 0, 1, 0⟩ ∧
    (countingFor (.zone 0 .alarm)).entryOf (.zone 0) = some (entry (.zone 0 .alarm) 0 0) ∧
    (countingFor (.sighting ownNotice)).qlc.holdoff = some ⟨.sighting ⟨1, 0⟩, 1, 0⟩ ∧
    (countingFor (.sighting ownNotice)).entryOf (.sighting ⟨1, 0⟩) =
      some (entry (.sighting ownNotice) 0 0) ∧
    (countingFor .presence).pins.rstLow = false ∧ operating.qlc.holdoff = none := by decide

theorem witness_TransmissionEnds :
    QueueInv (sending (.zone 0 .alarm) 4) ∧ QueueInv (sending .presence 5) ∧
    (sending (.zone 0 .alarm) 4).pins.rstLow = false ∧
    (sending (.zone 0 .alarm) 4).qlc.inFlight = some (.zone 0) ∧
    ((sending (.zone 0 .alarm) 4).entryOf (.zone 0)).map (·.attempts) = some 4 ∧
    (sending (.zone 0 .alarm) 4).nq.held = none ∧
    (sending (.zone 0 .alarm) 4).qlc.ownRead = some { arrival := 999990, chars := [0x31] } ∧
    frameWhole [0x31] = false ∧ frameWhole badForm = true ∧
    ((sending .presence 5).entryOf .presence).map (·.attempts) = some 5 ∧
    operating.qlc.inFlight = none :=
  ⟨queueInv_sending _ _ (by decide), queueInv_sending _ _ (by decide), rfl, rfl, rfl, rfl, rfl, by decide,
    by decide +kernel, rfl, rfl⟩

/-- A held post at the end of a transmission: of the level just announced and of another, of a station in
JOINING too. -/
theorem witness_TransmissionEnds_held :
    QueueInv (sendingHeld (.zone 0 .alarm) 4 (.zone 0 .alarm)) ∧
    QueueInv (sendingHeld (.zone 0 .alarm) 5 (.zone 0 .warn)) ∧
    (after .transmitSuccess (sendingHeld (.zone 0 .alarm) 4 (.zone 0 .alarm))).announced 0 = some .alarm ∧
    (after .transmitSuccess (sendingHeld (.zone 0 .alarm) 4 (.zone 0 .warn))).announced 0 ≠ some .warn ∧
    (sendingHeld (.zone 0 .alarm) 4 (.zone 0 .clear)).announced 0 = some .clear ∧
    (sendingHeld (.zone 0 .alarm) 4 (.zone 0 .warn)).announced 0 ≠ some .warn ∧
    (sendingHeld (.zone 0 .alarm) 4 (.zone 0 .warn)).scs.station ≠ .joining ∧
    (sendingHeld .presence 4 .presence).nq.held.map (·.notice) = some .presence :=
  ⟨queueInv_sendingHeld _ _ _ (by decide) rfl, queueInv_sendingHeld _ _ _ (by decide) rfl, by decide,
    by decide, by decide, by decide, by decide, rfl⟩

/-! Roster, time, invariants -/

theorem witness_PresenceTaken :
    FrameArrives (receiving operating) (record [])
      (frameBytes .presence 2 999900 (announcedBytes presence))
      (frameBytes .presence 2 999900 (announcedBytes presence)) ∧
    RosterOk (receiving operating) ∧
    stationPresent (receiving operating).tables 2 = true ∧ 2 ≠ (receiving operating).scs.own ∧
    AnnouncedInRange presence ∧ (receiving operating).active = true ∧
    AnnouncedInRange { presence with checksum := (receiving operating).scs.checksum } :=
  ⟨frameArrives rfl _, rosterOk_cleared rfl (by decide), by decide, by decide, announcedInRange_presence, rfl,
    by have h := announcedInRange_presence; unfold AnnouncedInRange at *; dsimp only; exact h⟩

/-- A pair that is a report at station 2, and one that is none: zone 1 is not the sender's. -/
theorem witness_PresenceTaken_pairs :
    RosterOk reporting ∧ stationPresent reporting.tables 1 = true ∧ 1 ≠ reporting.scs.own ∧
    reporting.active = true ∧ ([(⟨0, .warn, true⟩ : ZonePair), ⟨1, .alarm, false⟩].map (·.zone)).Nodup ∧
    zoneDescribed reporting.tables 0 = true ∧ (zoneRec reporting.tables 0).owner = 1 ∧
    reporting.receivedOf 0 = some (receivedSet 0) ∧ (zoneRec reporting.tables 1).owner ≠ 1 :=
  ⟨rosterOk_cleared rfl (by decide), by decide, by decide, rfl, by decide, by decide, by decide, by decide,
    by decide⟩

theorem witness_SilenceTaken :
    (withPeer operating .present (some 1000000)).rosterOf 2 =
      some ⟨.present, 999000, some 1000000, none⟩ ∧
    (withPeer operating .mismatch (some 1000001)).rosterOf 2 =
      some ⟨.mismatch, 999000, some 1000001, none⟩ ∧
    reached operating.prt.time 1000000 = true ∧ reached operating.prt.time 1000001 = false ∧
    operating.pins.rstLow = false ∧ operating.ownsSource 2 = false ∧ reporting.ownsSource 1 = true := by
  decide

theorem witness_EpochBoundarySettles :
    operating.pins.rstLow = false ∧ operating.prt.offsets = [] ∧
    correction [⟨2, 500, .locked⟩] = some 250 ∧ correction [⟨2, 502, .locked⟩] = some 251 ∧
    250 < (251 : Int).natAbs ∧ (250 : Int).natAbs ≤ 250 ∧
    (withStation operating .joining).scs.station = .joining ∧ operating.scs.joining = 0 ∧
    operating.scs.station ≠ .joining ∧
    -- a schedule point reached, passed, and met by a step back; the rail of the trim
    untilSchedule 1 1008199 = 1 ∧ untilSchedule 1 1008200 = 8000 ∧
    ((1008500 : Time) + BitVec.ofInt 32 (-300)).toNat % 8000 = 1 * 200 ∧
    (atTime 0).prt.timeRail = false ∧
    (after .epochBoundary { operating with
      prt := { operating.prt with trim := 63, offsets := [⟨2, 6, .locked⟩] } }).prt.timeRail = true := by
  decide

/-- The boundary that enters OPERATING, with a zone above CLEAR. -/
def entering : State :=
  let s := withStation { operating with scs := { operating.scs with joining := 1 } } .joining
  { s with zev := { s.zev with zones := s.zev.zones.map fun z => { z with level := .warn } } }

theorem witness_EpochBoundarySettles_entry :
    QueueInv entering ∧ entering.scs.station = .joining ∧ entering.scs.joining = 1 ∧
    (entering.zev.zones.map (·.zone)).Nodup ∧ entering.zev.zones.length ≤ 4 ∧
    entering.nq.entries.length ≤ 3 ∧ (∀ e ∈ entering.nq.entries, e.key = .presence) ∧
    (entering.zev.zones.map (·.level)) = [.warn] :=
  ⟨queueInv_empty rfl rfl rfl counters_operating, rfl, rfl, by decide, by decide, by decide, by decide,
    by decide⟩

/-- Deadlines reached by a step and by a gain, one of each kind. -/
theorem witness_deadlines :
    let s := nearing reporting
    let e : RosterEntry :=
      { state := .present, lastHeard := 999000, deadline := some 1000001, announced := none }
    operating.prt.time ≠ 1000001 ∧ (site s.tables).closeTime = 30 ∧
    passedEvents { s with prt := { s.prt with roster := s.prt.roster.set 0 e } } 1000001 =
      [.evaluation, .evaluation, .evaluation] ∧
    passedEvents (nearing operating) 1000001 = [.evaluation, .evaluation] ∧
    passedEvents (nearing operating) 1000000 = [] := by decide

theorem witness_CorrectionsSpent :
    0 < { operating.prt with slew := 8 }.slew ∧ { operating.prt with slew := -8 }.slew < 0 ∧
    operating.prt.slew = 0 ∧ 0 < { operating.prt with trim := 64 }.trim ∧
    { operating.prt with trim := -64 }.trim < 0 ∧ operating.prt.trim = 0 := by decide

theorem tablesInv_reset : TablesInv State.reset := by
  refine ⟨(by unfold MemoryOk; decide), (by unfold SelectionOk; decide), (by unfold storeHeaderOk; decide), ?_⟩
  exact ⟨rfl, rfl, rfl, rfl⟩

theorem tablesInv_operating : TablesInv operating := by
  refine ⟨(by unfold MemoryOk; decide), (by unfold SelectionOk; decide), ?_, ?_⟩
  · intro _
    dsimp only [operating, withStation, windowState]
  · exact ⟨rfl, rfl, rfl, rfl, by dsimp only [operating, withStation, windowState]⟩

theorem witness_TablesStay :
    TablesInv operating ∧ step operating = .next (operating.millisecond) ∧ TablesInv State.reset ∧
    step State.reset = .next State.reset.millisecond :=
  ⟨tablesInv_operating, rfl, tablesInv_reset, rfl⟩

theorem witness_QueueStays :
    QueueInv (sending .presence 5) ∧
    step { sending .presence 5 with pending := [.collision] } =
      .next (after .collision (sending .presence 5)) ∧
    PostedAfter 0 (sending .presence 5) ∧ PostedAfter 0 (after .collision (sending .presence 5)) ∧
    InUrgencyOrder (sending .presence 5).nq.entries := by
  refine ⟨queueInv_sending _ _ (Nat.le_refl 5), rfl, ?_⟩
  unfold PostedAfter InUrgencyOrder
  decide

theorem witness_QueueStays_receive :
    ReceiveOk State.reset ∧ ReceiveOk (receiving operating) ∧ ReceiveOk (sending .presence 5) ∧
    FramesOpen (sending .presence 5) ∧ FramesOpen (receivingPart operating ((frameOf2 newNotice).take 21)) ∧
    ¬FramesOpen (receivingPart operating (frameOf2 newNotice)) := by
  refine ⟨?_, ?_, ?_, framesOpen_of (by decide) (by decide), framesOpen_of (by decide +kernel) (by decide),
    fun h => absurd (h _ (.inl rfl)) (by decide +kernel)⟩ <;>
    simp [ReceiveOk, State.reset, receiving, sending, record, withEntries, operating, withStation, windowState,
      Qlc.fresh]

theorem witness_TracksStay :
    TracksInv rewriting ∧ step { rewriting with pending := [.preCheck ⟨2, 7⟩] } =
      .next (after (.preCheck ⟨2, 7⟩) rewriting) := by
  refine ⟨?_, rfl⟩
  unfold TracksInv TrackOk
  decide

theorem witness_BlocksStay :
    TimeInv operating ∧ SensorInv operating ∧ ZonesInv operating ∧
    step operating = .next operating.millisecond := by
  refine ⟨⟨rosterOk_cleared rfl (by decide), by unfold TimeOk; decide⟩, ?_, ?_, rfl⟩
  · refine ⟨by decide, by decide, by decide, by decide, by decide, by decide, ?_, by decide, by decide,
      ?_, by decide, by decide, by decide, by decide, by decide, by decide⟩ <;>
    · intro v h
      cases h
  · unfold ZonesInv ZoneOk
    decide

end Sys2Proof.Tests
end

/-! ### Posts, schedule point and holdoff expiry for PRESENCE (R129, R145, R148, R172) -/

namespace Sys2Proof.Machine

/-! #### What a queue lookup says of the entry found -/

theorem State.entryOf_mem {s : State} {k : Key} {x : Entry} (h : s.entryOf k = some x) :
    x ∈ s.nq.entries := List.mem_of_find?_eq_some h

theorem State.entryOf_key {s : State} {k : Key} {x : Entry} (h : s.entryOf k = some x) : x.key = k := by
  simpa using List.find?_some h

/-- R143: only the PRESENCE notice has the PRESENCE key. -/
theorem Notice.eq_presence_of_key {n : Notice} (h : n.key = .presence) : n = .presence := by
  cases n with
  | presence => rfl
  | sighting p => cases h
  | zone z l => cases h

/-! #### One post, by what the queue holds for its key (R145) -/

/-- R145: the entry that a post of `n` with class `cls` makes where it is taken. -/
def State.postEntry (s : State) (cls : Nat) (n : Notice) : Entry where
  notice := n
  cls := cls
  postTime := s.now
  steps := s.nq.steps
  order := s.nq.nextOrder
  attempts := 0
  inFlight := false

/-- R145: the post's serial number is taken before the post itself. -/
def State.takeSerial (s : State) : State := s.mapNq fun q => { q with nextOrder := q.nextOrder + 1 }

/-- QLC's following of a post leaves the queue as the post made it. -/
theorem State.post_nq (s : State) (cls : Nat) (n : Notice) :
    (s.post cls n).nq = (s.takeSerial.takePost (s.postEntry cls n)).nq :=
  State.follow_nq _

theorem State.takePost_of_none {s : State} {e : Entry} (hd : s.dropsPost e.notice = false)
    (h : s.entryOf e.key = none) : s.takePost e = s.place e := by
  simp [State.takePost, hd, h]

theorem State.takePost_of_waiting {s : State} {e x : Entry} (hd : s.dropsPost e.notice = false)
    (h : s.entryOf e.key = some x) (hx : x.inFlight = false) : s.takePost e = s.refold x e := by
  simp [State.takePost, hd, h, hx]

/-- R145: a post into a queue with room is inserted in its place. -/
theorem State.place_of_room {s : State} {e : Entry} (h : s.nq.entries.length < Config.queueSize) :
    s.place e = s.setEntries (insertEntry e s.nq.entries) := if_pos h

/-! #### A PRESENCE post (R148) -/

@[simp] theorem State.dropsPost_presence (s : State) : s.dropsPost .presence = false := by
  simp [State.dropsPost]

@[simp] theorem State.redundant_presence (s : State) : s.redundant .presence = false := rfl

/-- R148: a PRESENCE folded into an entry leaves the entry as it is. -/
@[simp] theorem foldNotice_presence (x : Entry) (cls : Nat) : foldNotice x .presence cls = x := by
  unfold foldNotice
  cases x.notice with
  | presence => rfl
  | sighting p => rfl
  | zone z l => rfl

/-- An entry that folding leaves as it is leaves the queue as it is: no other entry has its order. -/
theorem refoldEntry_self {x : Entry} {es : List Entry} (hn : (es.map (·.order)).Nodup) (hx : x ∈ es) :
    refoldEntry x x es = es := by
  have hsame : ∀ e ∈ es, (if e.order = x.order then x else e) = e := fun e he => by
    split
    · next ho => exact (List.inj_on_of_nodup_map hn he hx ho).symm
    · rfl
  rw [refoldEntry, if_pos rfl, List.map_congr_left hsame, List.map_id']

/-- R148: a PRESENCE post while a PRESENCE entry waits takes a serial number and changes nothing else in the
queue. -/
theorem State.post_presence_waiting {s : State} {x : Entry} (hn : (s.nq.entries.map (·.order)).Nodup)
    (h : s.entryOf .presence = some x) (hx : x.inFlight = false) (cls : Nat) :
    (s.post cls .presence).nq = { s.nq with nextOrder := s.nq.nextOrder + 1 } := by
  have hp : x.notice = .presence := Notice.eq_presence_of_key (State.entryOf_key h)
  rw [State.post_nq, State.takePost_of_waiting (State.dropsPost_presence _) h hx]
  simp [State.refold, State.takeSerial, State.postEntry, hp, refoldEntry_self hn (State.entryOf_mem h)]

/-- R145: a PRESENCE post with no PRESENCE entry queued, and room, inserts its entry. -/
theorem State.post_presence_new {s : State} (h : s.entryOf .presence = none)
    (hr : s.nq.entries.length < Config.queueSize) (cls : Nat) :
    (s.post cls .presence).nq.entries = insertEntry (s.postEntry cls .presence) s.nq.entries := by
  rw [State.post_nq, State.takePost_of_none (State.dropsPost_presence _) h,
    State.place_of_room (s := s.takeSerial) hr]
  rfl

/-! #### The schedule point (R172) -/

theorem OnlyPosts.takeEvent (s : State) (p : Instr → Bool) : OnlyPosts s (s.takeEvent p) := rfl

theorem exec_schedulePoint {s : State} (h : s.pins.rstLow = false) :
    exec .schedulePoint s = .next (s.takeEvent fun e => decide (e = .schedulePoint)).schedulePoint := by
  change execSchedulePoint s = _
  simp [execSchedulePoint, h]

theorem State.schedulePoint_active {s : State} (h : s.active = true) :
    s.schedulePoint = s.post 4 .presence := if_pos h

theorem State.schedulePoint_inactive {s : State} (h : s.active = false) : s.schedulePoint = s := by
  simp [State.schedulePoint, h]

/-! #### The frame of a notice, assembled when it starts (R129, R153) -/

/-- R153: queue, line and raised events have no part in the frame of a notice. -/
theorem OnlyPosts.frameOf {s t : State} (h : OnlyPosts s t) (n : Notice) : t.frameOf n = s.frameOf n := by
  rw [h]
  cases n with
  | presence => rfl
  | sighting p => rfl
  | zone z l => rfl

theorem State.startSending_frame (s : State) (e : Entry) :
    (s.startSending e).qlc.frame = s.frameOf e.notice := rfl

theorem exec_holdoffExpiry {s : State} (h : s.pins.rstLow = false) (quiet : Nat) :
    exec (.holdoffExpiry quiet) s = .next ((s.takeEvent isHoldoffExpiry).holdoffExpiry quiet) := by
  change execHoldoffExpiry quiet s = _
  simp [execHoldoffExpiry, h]

/-- R129: with quiet time at the holdoff's length the selected entry starts. -/
theorem State.holdoffExpiry_starts {s : State} {h : Holdoff} {x : Entry} {quiet : Nat}
    (hh : s.qlc.holdoff = some h) (hx : s.entryOf h.selected = some x) (hl : h.length ≤ quiet)
    (hq : quiet ≤ Config.quietMax) :
    s.holdoffExpiry quiet =
      (s.mapQlc fun q => { q with quiet := min (max q.quiet quiet) Config.quietMax }).startSending x := by
  have hreached : h.length ≤ min (max s.qlc.quiet quiet) Config.quietMax := by omega
  have hentry : ∀ f, (s.mapQlc f).entryOf h.selected = some x := fun _ => hx
  simp [State.holdoffExpiry, hh, hreached, hentry]

/-- R129, R153: the frame a holdoff's running out starts is assembled from the state as it stands then. -/
theorem State.holdoffExpiry_frame {s : State} {h : Holdoff} {x : Entry} {quiet : Nat}
    (hh : s.qlc.holdoff = some h) (hx : s.entryOf h.selected = some x) (hl : h.length ≤ quiet)
    (hq : quiet ≤ Config.quietMax) : (s.holdoffExpiry quiet).qlc.frame = s.frameOf x.notice := by
  rw [State.holdoffExpiry_starts hh hx hl hq, State.startSending_frame, (OnlyPosts.mapQlc s _).frameOf]

/-! #### The parts of R148 and R172 -/

/-- R172: in JOINING and OPERATING the schedule point posts a PRESENCE of class 4. -/
theorem schedulePoint_posts_presence {s : State} (hp : s.pins.rstLow = false) (ha : s.active = true) :
    ∃ t, exec .schedulePoint s = .next t ∧ OnlyPosts s t ∧
      (s.entryOf .presence = none → s.nq.entries.length < Config.queueSize →
        t.nq.entries = insertEntry (s.postEntry 4 .presence) s.nq.entries) := by
  refine ⟨(s.takeEvent fun e => decide (e = .schedulePoint)).post 4 .presence, ?_,
    (OnlyPosts.takeEvent s _).trans (State.post_only _ _ _),
    fun hnone hroom => State.post_presence_new (s := s.takeEvent _) hnone hroom 4⟩
  rw [exec_schedulePoint hp, State.schedulePoint_active]
  exact ha

/-- R148, R153: the waiting PRESENCE is assembled when its holdoff runs out. -/
theorem holdoffExpiry_presence_frame {s : State} {x : Entry} {h : Holdoff} {quiet : Nat}
    (hp : s.pins.rstLow = false) (hx : s.entryOf .presence = some x) (hh : s.qlc.holdoff = some h)
    (hsel : h.selected = .presence) (hl : h.length ≤ quiet) (hq : quiet ≤ Config.quietMax) :
    ∃ t, exec (.holdoffExpiry quiet) s = .next t ∧ t.qlc.frame = s.frameOf .presence := by
  refine ⟨_, exec_holdoffExpiry hp quiet, ?_⟩
  have hframe := State.holdoffExpiry_frame (s := s.takeEvent isHoldoffExpiry) hh (hsel ▸ hx) hl hq
  rw [hframe, (OnlyPosts.takeEvent s _).frameOf, Notice.eq_presence_of_key (State.entryOf_key hx)]

/-- Settles O48: the schedule point's post inserts its entry or, where a PRESENCE waits, leaves the entries
as they are, their orders being distinct; the frame is read off the state in which the holdoff runs out. -/
theorem presenceFolded : Obligations.PresenceFolded := by
  intro s hp hinv
  obtain ⟨-, -, -, -, ⟨horders, -, -⟩, -⟩ := hinv
  refine ⟨fun ha => ?_, fun ha => ?_, fun x hx hwait => ⟨fun cls => ?_, fun f => ?_, ?_⟩⟩
  · obtain ⟨t, hexec, honly, hnew⟩ := schedulePoint_posts_presence hp ha
    refine ⟨t, hexec, honly, fun hnone hroom => ?_⟩
    rw [hnew hnone hroom]
    exact ⟨insertEntry_length _ _, fun e he => mem_insertEntry.2 (.inr he),
      s.postEntry 4 .presence, mem_insertEntry.2 (.inl rfl), rfl, rfl, rfl, rfl, rfl⟩
  · refine ⟨s.raised.eraseP fun e => decide (e = .schedulePoint), ?_⟩
    rw [exec_schedulePoint hp, State.schedulePoint_inactive (s := s.takeEvent _) ha]
    rfl
  · rw [State.post_presence_waiting horders hx hwait cls]
    exact ⟨rfl, rfl⟩
  · have hfaults := State.faultEvent_faults s f
    exact ⟨hfaults ▸ Faults.get_set _ f, congrArg Faults.bits hfaults⟩
  · intro quiet h hh hsel hl hq
    exact holdoffExpiry_presence_frame hp hx hh hsel hl hq

end Sys2Proof.Machine

/-! ### Channel service and the channel that VIEW SELECT names (R31, R33, R186, R191, R195) -/

namespace Sys2Proof.Machine

/-! #### Channel service at SFE (R31, R33) -/

section sfe
variable {f : Sfe} {c : Channel}

/-- R31: a channel that is out already stays as it stands. -/
theorem Sfe.takeOut_of_out (h : f.inService c = false) (lamp : Bool) : f.takeOut c lamp = f := by
  simp [Sfe.takeOut, h]

/-- R33: the return of a channel that is in service changes nothing. -/
theorem Sfe.bringIn_of_in (h : f.inService c = true) (pins : Pins) (active : Bool) :
    f.bringIn c pins active = f := by
  simp [Sfe.bringIn, h]

/-- R31: the named channel leaves service and no other does. -/
@[simp] theorem Sfe.takeOut_inService (f : Sfe) (c d : Channel) (lamp : Bool) :
    (f.takeOut c lamp).inService d = (decide (d ≠ c) && f.inService d) := by
  cases h : f.inService c
  · rw [Sfe.takeOut_of_out h]
    by_cases hd : d = c
    · simp [hd, h]
    · simp [hd]
  · simp only [Sfe.takeOut, h, if_true]
    cases c <;> cases d <;> rfl

/-- R33: the named channel regains service and no other does. -/
@[simp] theorem Sfe.bringIn_inService (f : Sfe) (c d : Channel) (pins : Pins) (active : Bool) :
    (f.bringIn c pins active).inService d = (decide (d = c) || f.inService d) := by
  cases h : f.inService c
  · simp only [Sfe.bringIn, h, Bool.false_eq_true, if_false]
    cases c <;> cases d <;> rfl
  · rw [Sfe.bringIn_of_in h]
    by_cases hd : d = c
    · simp [hd, h]
    · simp [hd]

/-- R32: what ANEMO held stays when a channel goes out of service. -/
@[simp] theorem Sfe.takeOut_anemoWindow (f : Sfe) (c : Channel) (lamp : Bool) :
    (f.takeOut c lamp).anemoWindow = f.anemoWindow := by
  unfold Sfe.takeOut
  split
  · cases c <;> rfl
  · rfl

/-- R32: what VANE held stays when a channel goes out of service. -/
@[simp] theorem Sfe.takeOut_accepted (f : Sfe) (c : Channel) (lamp : Bool) :
    (f.takeOut c lamp).accepted = f.accepted := by
  unfold Sfe.takeOut
  split
  · cases c <;> rfl
  · rfl

/-- R33: an ANEMO that returns restarts its window and warming. -/
theorem Sfe.bringIn_anemo (h : f.anemoIn = false) (pins : Pins) (active : Bool) :
    f.bringIn .anemo pins active = { f with
      anemoIn := true, anemoWindow := [], warming := 0, g3 := 0, s60 := none, silentRun := 0 } := by
  simp [Sfe.bringIn, Sfe.inService, h]

/-- R33: a VANE that returns restarts its candidate and record. -/
theorem Sfe.bringIn_vane (h : f.vaneIn = false) (pins : Pins) (active : Bool) :
    f.bringIn .vane pins active = { f with
      vaneIn := true, candidate := none, run := 0, vanePrev := none, vaneRecord := [] } := by
  simp [Sfe.bringIn, Sfe.inService, h]

/-- R38: a power-on and a line reset put every channel in service. -/
@[simp] theorem Sfe.fresh_inService (suppr ack : Bool) (c : Channel) :
    (Sfe.fresh suppr ack).inService c = true := by
  cases c <;> rfl

/-- R38: so does a restart. -/
@[simp] theorem Sfe.restarted_inService (f : Sfe) (pins : Pins) (c : Channel) :
    (f.restarted pins).inService c = true := by
  cases c <;> rfl

end sfe

/-! #### The channel commands' effects on the state (R31, R33, R34) -/

/-- R29: setting the ACK pending flag, whether it was set before or not. -/
theorem State.setAckPending_sfe (s : State) : s.setAckPending.sfe = { s.sfe with ackPending := true } := by
  unfold State.setAckPending
  split
  · next h => rw [← h]
  · rfl

theorem State.setAckPending_frame (s : State) :
    s.setAckPending = { s with sfe := s.setAckPending.sfe, raised := s.setAckPending.raised } := by
  unfold State.setAckPending
  split <;> rfl

/-- R33, R34: all that CHANNEL IN does at SFE: the channel's return, and for an ACK that was out of service it
may set the ACK pending flag besides. -/
theorem State.channelIn_cases (s : State) (c : Channel) :
    s.channelIn c = s.mapSfe (fun f => f.bringIn c s.pins s.ownRec.supprHigh) ∨
    (c = .ack ∧ s.sfe.ackIn = false ∧
      s.channelIn c = (s.mapSfe fun f => f.bringIn c s.pins s.ownRec.supprHigh).setAckPending) := by
  unfold State.channelIn
  simp only
  split
  · next h =>
    simp only [Bool.and_eq_true, decide_eq_true_eq, Bool.not_eq_true'] at h
    obtain ⟨⟨⟨hc, hout⟩, -⟩, -⟩ := h
    exact .inr ⟨hc, hout, rfl⟩
  · exact .inl rfl

theorem State.channelIn_frame (s : State) (c : Channel) :
    s.channelIn c = { s with sfe := (s.channelIn c).sfe, raised := (s.channelIn c).raised } := by
  obtain h | ⟨-, -, h⟩ := s.channelIn_cases c <;> rw [h]
  · rfl
  · exact State.setAckPending_frame _

/-- R33, R34: for a channel other than ACK, CHANNEL IN leaves SFE as the channel's return does. -/
theorem State.channelIn_sfe (s : State) {c : Channel} (hc : c ≠ .ack) :
    (s.channelIn c).sfe = s.sfe.bringIn c s.pins s.ownRec.supprHigh := by
  obtain h | ⟨hack, -, -⟩ := s.channelIn_cases c
  · rw [h, State.mapSfe_sfe]
  · exact absurd hack hc

/-- R33: CHANNEL IN for a channel that is in service changes nothing. -/
theorem State.channelIn_of_in {s : State} {c : Channel} (h : s.sfe.inService c = true) : s.channelIn c = s := by
  obtain hin | ⟨rfl, hout, -⟩ := s.channelIn_cases c
  · rw [hin, State.mapSfe, Sfe.bringIn_of_in h]
  · exact absurd (h.symm.trans hout) (by decide)

/-- R31: CHANNEL OUT takes its channel out of service and no other. -/
theorem State.channelOut_inService (s : State) (c d : Channel) :
    (s.channelOut c).sfe.inService d = (decide (d ≠ c) && s.sfe.inService d) :=
  Sfe.takeOut_inService _ _ _ _

/-- R33: CHANNEL IN brings its channel into service and no other; the ACK pending flag has no part in it. -/
theorem State.channelIn_inService (s : State) (c d : Channel) :
    (s.channelIn c).sfe.inService d = (decide (d = c) || s.sfe.inService d) := by
  rw [← Sfe.bringIn_inService s.sfe c d s.pins s.ownRec.supprHigh]
  obtain h | ⟨-, -, h⟩ := s.channelIn_cases c <;> rw [h]
  · rfl
  · rw [State.setAckPending_sfe]
    cases d <;> rfl

/-! #### The channel commands through the setup port (R179, R186) -/

/-- R179: while the busy mark is set a command is answered BUSY. -/
theorem State.command_busy {s : State} {ok : StationState → Bool} {f : State → State}
    (h : s.portOpen = true) (hb : s.scs.busy ≠ .clear) : s.command ok f = s.setResult .busy := by
  simp [State.command, h, hb]

theorem State.onChannel_named {s : State} {c : Channel} (h : s.scs.view = .channel c)
    (f : State → Channel → State) : s.onChannel f = (f s c).setResult .done := by
  simp [State.onChannel, h]

theorem State.onChannel_unnamed {s : State} (h : ∀ c, s.scs.view ≠ .channel c)
    (f : State → Channel → State) : s.onChannel f = s.setResult .refusedArgument := by
  unfold State.onChannel
  split
  · next c hc => exact absurd hc (h c)
  · rfl
  · rfl

theorem exec_channelOut (s : State) :
    exec .channelOut s = .next (s.command always fun s => s.onChannel State.channelOut) := rfl

theorem exec_channelIn (s : State) :
    exec .channelIn s = .next (s.command always fun s => s.onChannel State.channelIn) := rfl

/-- R186: with no busy mark both commands act on the channel that VIEW SELECT names. -/
theorem exec_channel_named {s : State} {c : Channel} (h : s.portOpen = true) (hb : s.scs.busy = .clear)
    (hc : s.scs.view = .channel c) :
    exec .channelOut s = .next ((s.channelOut c).setResult .done) ∧
      exec .channelIn s = .next ((s.channelIn c).setResult .done) := by
  rw [exec_channelOut, exec_channelIn, State.command_taken h hb rfl, State.command_taken h hb rfl,
    State.onChannel_named hc, State.onChannel_named hc]
  exact ⟨rfl, rfl⟩

/-- R186: with no channel named both commands are answered REFUSED_ARGUMENT. -/
theorem exec_channel_unnamed {s : State} (h : s.portOpen = true) (hb : s.scs.busy = .clear)
    (hnone : ∀ c, s.scs.view ≠ .channel c) :
    exec .channelOut s = .next (s.setResult .refusedArgument) ∧
      exec .channelIn s = .next (s.setResult .refusedArgument) := by
  rw [exec_channelOut, exec_channelIn, State.command_taken h hb rfl, State.command_taken h hb rfl,
    State.onChannel_unnamed hnone, State.onChannel_unnamed hnone]
  exact ⟨rfl, rfl⟩

/-- R179, R186: with a busy mark both commands are answered BUSY. -/
theorem exec_channel_busy {s : State} (h : s.portOpen = true) (hb : s.scs.busy ≠ .clear) :
    exec .channelOut s = .next (s.setResult .busy) ∧ exec .channelIn s = .next (s.setResult .busy) := by
  rw [exec_channelOut, exec_channelIn, State.command_busy h hb, State.command_busy h hb]
  exact ⟨rfl, rfl⟩

/-! #### The channel that VIEW SELECT names (R191, R195) -/

/-- R195: the code that names a channel. -/
def Channel.viewCode : Channel → Nat
  | .anemo => 0xC0
  | .vane => 0xC1
  | .dust => 0xC2
  | .suppr => 0xC3
  | .ack => 0xC4
  | .lamp => 0xC5

theorem channelOf_eq_some {k : Nat} {c : Channel} : channelOf k = some c ↔ 0xC0 + k = c.viewCode := by
  constructor
  · unfold channelOf
    split <;> rintro ⟨⟩ <;> rfl
  · intro h
    have hk : k = c.viewCode - 0xC0 := by omega
    rw [hk]
    cases c <;> rfl

/-- R195: a code names a channel exactly when it is that channel's code. -/
theorem selectedBy_eq_channel {n : Nat} {c : Channel} : selectedBy n = .channel c ↔ n = c.viewCode := by
  by_cases hn : 0xC0 ≤ n
  · have hsel : selectedBy n = .channel c ↔ channelOf (n - 0xC0) = some c := by
      unfold selectedBy
      rw [if_neg (by omega), if_neg (by omega), if_neg (by omega), if_pos hn]
      cases channelOf (n - 0xC0) <;> simp
    rw [hsel, channelOf_eq_some, Nat.add_sub_cancel' hn]
  · have hcode : 0xC0 ≤ c.viewCode := by cases c <;> decide
    refine iff_of_false ?_ (by omega)
    unfold selectedBy
    rw [if_neg hn]
    split_ifs <;> exact nofun

/-- R191: only the code of a channel makes a selection that names it. -/
theorem State.viewOf_eq_channel {s : State} {n : Nat} {c : Channel} :
    s.viewOf n = .channel c ↔ n = c.viewCode := by
  rw [← selectedBy_eq_channel]
  unfold State.viewOf
  cases selectedBy n <;> simp

/-- R191: a write to VIEW SELECT, taken but during PROGRAMMING. -/
theorem exec_viewSelect_view {s : State} (h : s.portOpen = true) (hb : s.scs.busy ≠ .programming)
    (code : Byte) :
    ∃ t, exec (.viewSelect code) s = .next t ∧ t.scs.view = s.viewOf code.toNat :=
  ⟨s.viewSelect code, rfl, by simp [State.viewSelect, State.writesOpen, h, hb]⟩

/-! #### Resets and restart (R38, R185) -/

theorem exec_restart_sfe {s : State} (h : s.portOpen = true) (hb : s.scs.busy = .clear)
    (hs : s.scs.station = .joining ∨ s.scs.station = .operating) :
    ∃ t, exec .restart s = .next t ∧ t.sfe = s.sfe.restarted s.pins := by
  refine ⟨s.takeRestart, rfl, ?_⟩
  rw [State.takeRestart, State.command_taken h hb (decide_eq_true hs)]
  rfl

/-- Settles O22: each command is taken through `State.command` and `State.onChannel`; what it then does to the
named channel and to the others is said at SFE. -/
theorem channelService : Obligations.ChannelService := by
  refine ⟨fun s h hb => exec_channel_busy h hb, fun s h hb code => ?_, fun s sn suppr ack => ?_,
    fun s h hb hs => ?_, fun s h hb => ⟨fun c hc => ?_, exec_channel_unnamed h hb⟩⟩
  · obtain ⟨t, hexec, hview⟩ := exec_viewSelect_view h hb code
    refine ⟨t, hexec, fun c k hk => ?_⟩
    have hcode : k = c.viewCode := by cases c <;> simpa [Channel.viewCode] using hk
    rw [hview, State.viewOf_eq_channel, hcode]
  · exact ⟨_, _, rfl, rfl, rfl, rfl, fun c => Sfe.fresh_inService _ _ c⟩
  · obtain ⟨t, hexec, hsfe⟩ := exec_restart_sfe h hb hs
    exact ⟨t, hexec, fun c => hsfe ▸ Sfe.restarted_inService _ _ c⟩
  · obtain ⟨hexecOut, hexecIn⟩ := exec_channel_named h hb hc
    have hout := s.channelOut_inService c
    have hin := s.channelIn_inService c
    refine ⟨_, _, hexecOut, hexecIn, rfl, congrArg (·.setResult .done) (s.channelIn_frame c), ?_, ?_,
      fun d hd => ⟨?_, ?_⟩, fun hc => ?_, fun hc => Sfe.takeOut_of_out hc _,
      Sfe.takeOut_anemoWindow _ _ _, Sfe.takeOut_accepted _ _ _, ?_, ?_⟩
    · simp [hout]
    · simp [hin]
    · simp [hout, hd]
    · simp [hin, hd]
    · rw [State.channelIn_of_in hc]
      rfl
    · rintro rfl hanemo
      simp [s.channelIn_sfe (c := .anemo) (by decide), Sfe.bringIn_anemo hanemo]
    · rintro rfl hvane
      simp [s.channelIn_sfe (c := .vane) (by decide), Sfe.bringIn_vane hvane]

end Sys2Proof.Machine

/-! ### TROUBLE (R190) -/

namespace Sys2Proof.Machine

/-- R187: the register has a flag set exactly when some flag reads as set. -/
theorem Faults.any_eq_true {f : Faults} : f.any = true ↔ ∃ g, f.get g = true := by
  constructor
  · intro h
    simp only [Faults.any, Bool.or_eq_true] at h
    obtain (((((h | h) | h) | h) | h) | h) | h := h
    exacts [⟨.anemoSilent, h⟩, ⟨.vaneErratic, h⟩, ⟨.dustLamp, h⟩, ⟨.lineTrouble, h⟩,
      ⟨.duplicateStation, h⟩, ⟨.timeRail, h⟩, ⟨.storeFault, h⟩]
  · rintro ⟨g, h⟩
    cases g <;> simp_all [Faults.any, Faults.get]

theorem State.trouble_eq_true {s : State} :
    s.trouble = true ↔
      s.pins.rstLow = true ∨ s.scs.station ≠ .operating ∨ ∃ f, s.scs.faults.get f = true := by
  simp only [State.trouble, Bool.or_eq_true, decide_eq_true_eq, Faults.any_eq_true, or_assoc]
  rw [or_comm (a := ∃ f, s.scs.faults.get f = true)]

theorem State.trouble_eq_false {s : State} :
    s.trouble = false ↔
      s.pins.rstLow = false ∧ s.scs.station = .operating ∧ ∀ f, s.scs.faults.get f = false := by
  rw [← Bool.not_eq_true, State.trouble_eq_true]
  simp

/-- R113: no beacon reads the fault register. -/
theorem State.beacon_faults (s : State) (f : Faults) (pair : Nat) :
    ({ s with scs := { s.scs with faults := f } }).beacon pair = s.beacon pair := rfl

/-- R113: no sounder reads the fault register. -/
theorem State.sounder_faults (s : State) (f : Faults) (pair : Nat) :
    ({ s with scs := { s.scs with faults := f } }).sounder pair = s.sounder pair := rfl

/-- Settles O47: TROUBLE is the disjunction of R190, and the outputs of the pairs read none of the flags. -/
theorem troubleShown : Obligations.TroubleShown := fun s =>
  ⟨State.trouble_eq_true, State.trouble_eq_false,
    fun hjoining => State.trouble_eq_true.2 (.inr (.inl (by simp [hjoining]))),
    fun hdup => State.trouble_eq_true.2 (.inr (.inr ⟨.duplicateStation, hdup⟩)),
    fun f pair => ⟨s.beacon_faults f pair, s.sounder_faults f pair⟩⟩

end Sys2Proof.Machine

/-! ### One step, command by command -/

namespace Sys2Proof.Machine

/-- The state that a command leaves; every command leaves one (`exec_eq`). -/
def State.after (s : State) (c : Instr) : State :=
  match exec c s with
  | .next t => t
  | .fault _ => s
  | .refused _ => s

/-- No command stops. -/
theorem exec_eq (c : Instr) (s : State) : exec c s = .next (s.after c) := by
  cases c <;> rfl

theorem exec_next {c : Instr} {s t : State} (h : exec c s = .next t) : t = s.after c := by
  rw [exec_eq] at h
  exact (Host.Outcome.next.inj h).symm

/-- All that a step can do: the effect of some command on the state without it, or one millisecond. -/
theorem step_cases {s t : State} (h : step s = .next t) :
    (∃ c l, t = ({ s with pending := l } : State).after c) ∨ t = s.millisecond := by
  obtain ⟨pins, tables, store, sfe, gdu, tracks, zev, nq, qlc, prt, scs, raised, pending⟩ := s
  cases pending with
  | cons c l => exact .inl ⟨c, l, exec_next h⟩
  | nil =>
    unfold step idle at h
    simp only at h
    split at h
    · next e he => exact .inl ⟨e, [], exec_next h⟩
    · split at h
      · next e l he => exact .inl ⟨e, [], exec_next h⟩
      · exact .inr (Host.Outcome.next.inj h).symm

/-- What ignores the queue of commands, and every command and the passing of a millisecond keep, every step
keeps. -/
theorem step_keeps {P : State → Prop} (hpending : ∀ s l, P s → P { s with pending := l })
    (hcommand : ∀ c s, P s → P (s.after c)) (hidle : ∀ s, P s → P s.millisecond) {s t : State} (hs : P s)
    (h : step s = .next t) : P t := by
  obtain ⟨c, l, rfl⟩ | rfl := step_cases h
  · exact hcommand c _ (hpending s l hs)
  · exact hidle s hs

end Sys2Proof.Machine

/-! ### What each operation of the working blocks can change -/

namespace Sys2Proof.Machine

/-! #### All of them together -/

/-- `t` differs from `s` at most in the working blocks, in the input lines, and in the fault register with
the health arm and the quiet-epoch mark: tables, store, setup port, station state and the queue of commands
are those of `s`. -/
def OnlyWorks (s t : State) : Prop :=
  t = { s with
    pins := t.pins, sfe := t.sfe, gdu := t.gdu, tracks := t.tracks, zev := t.zev, nq := t.nq
    qlc := t.qlc, prt := t.prt, raised := t.raised
    scs := { s.scs with
      faults := t.scs.faults, healthArm := t.scs.healthArm, quietEpoch := t.scs.quietEpoch } }

theorem OnlyWorks.refl (s : State) : OnlyWorks s s := rfl

theorem OnlyWorks.trans {s t u : State} (h : OnlyWorks s t) (k : OnlyWorks t u) : OnlyWorks s u := by
  unfold OnlyWorks at *
  rw [k, h]

theorem OnlyFaults.works {s t : State} (h : OnlyFaults s t) : OnlyWorks s t := by
  unfold OnlyWorks OnlyFaults at *
  rw [h]

theorem OnlyPosts.works {s t : State} (h : OnlyPosts s t) : OnlyWorks s t := (OnlyFaults.of_posts h).works

theorem OnlyDeadlines.works {s t : State} (h : OnlyDeadlines s t) : OnlyWorks s t := by
  obtain ⟨n, h⟩ := h
  unfold OnlyWorks
  rw [h]

/-! #### Track Table: admissions and deadlines -/

/-- `t` differs from `s` at most in its slots and in what has been raised. -/
def OnlySlots (s t : State) : Prop := t = { s with tracks := t.tracks, raised := t.raised }

theorem OnlySlots.refl (s : State) : OnlySlots s s := rfl

theorem OnlySlots.trans {s t u : State} (h : OnlySlots s t) (k : OnlySlots t u) : OnlySlots s u := by
  unfold OnlySlots at *
  rw [k, h]

theorem OnlySlots.works {s t : State} (h : OnlySlots s t) : OnlyWorks s t := by
  unfold OnlyWorks OnlySlots at *
  rw [h]

theorem State.fadeTrack_only (s : State) (id : TrackId) : OnlySlots s (s.fadeTrack id) := by
  obtain ⟨-, h⟩ | ⟨t, -, -, h⟩ := s.fadeTrack_cases id <;> rw [h] <;> rfl

theorem State.closeTrack_only (s : State) (id : TrackId) : OnlySlots s (s.closeTrack id) := by
  unfold State.closeTrack
  split
  · rfl
  · split <;> rfl

theorem State.admission_only (s : State) (r : Request) (peer : Bool) :
    OnlySlots s (s.admission r peer).2 := by
  obtain ⟨-, h⟩ | ⟨l, -, -, h⟩ := s.admit_cases r peer <;> rw [h]
  · rfl
  · exact State.fadeTrack_only _ _

/-! #### Gust Detector -/

/-- `t` differs from `s` at most as a sample at the Gust Detector may make it differ. -/
def OnlyDetects (s t : State) : Prop :=
  t = { s with
    sfe := { s.sfe with latch := t.sfe.latch }
    gdu := t.gdu, tracks := t.tracks, nq := t.nq, qlc := t.qlc, raised := t.raised }

theorem OnlyDetects.trans {s t u : State} (h : OnlyDetects s t) (k : OnlyDetects t u) :
    OnlyDetects s u := by
  unfold OnlyDetects at *
  rw [k, h]

theorem OnlyDetects.of_posts {s t : State} (h : OnlyPosts s t) : OnlyDetects s t := by
  unfold OnlyDetects OnlyPosts at *
  rw [h]

theorem OnlyDetects.of_slots {s t : State} (h : OnlySlots s t) : OnlyDetects s t := by
  unfold OnlyDetects OnlySlots at *
  rw [h]

theorem OnlyDetects.mapGdu (s : State) (f : Gdu → Gdu) : OnlyDetects s (s.mapGdu f) := rfl

theorem OnlyDetects.works {s t : State} (h : OnlyDetects s t) : OnlyWorks s t := by
  unfold OnlyWorks OnlyDetects at *
  rw [h]

theorem State.localJoin_only (s : State) (e : Episode) (id : TrackId) : OnlyDetects s (s.localJoin e id) :=
  ((OnlyDetects.of_slots (State.admission_only _ _ _)).trans (OnlyDetects.mapGdu _ _)).trans
    (.of_posts (State.post_only _ _ _))

theorem State.localNew_only (s : State) (e : Episode) : OnlyDetects s (s.localNew e) := by
  unfold State.localNew
  split
  · rfl
  · exact ((OnlyDetects.of_slots (State.admission_only _ _ _)).trans (OnlyDetects.mapGdu _ _)).trans
      (.of_posts (State.post_only _ _ _))

theorem State.onset_only (s : State) (r : SampleRecord) : OnlyDetects s (s.onset r) := by
  have hlatch : OnlyDetects s (s.mapSfe fun f => { f with latch := false }) := rfl
  unfold State.onset
  simp only
  split
  · split
    · exact hlatch.trans (State.localJoin_only _ _ _)
    · exact hlatch.trans (State.localNew_only _ _)
  · exact hlatch.trans (OnlyDetects.mapGdu _ _)

theorem State.update_only (s : State) (e : Episode) (u : Time) : OnlyDetects s (s.update e u) := by
  unfold State.update
  split
  · rfl
  · split
    · exact ((OnlyDetects.of_slots (State.admission_only _ _ _)).trans
        (.of_posts (State.post_only _ _ _))).trans (OnlyDetects.mapGdu _ _)
    · rfl

theorem State.episodeSample_only (s : State) (e : Episode) (r : SampleRecord) :
    OnlyDetects s (s.episodeSample e r) := by
  have hmode : ∀ m, OnlyDetects s (s.setMode m) := fun m => OnlyDetects.mapGdu _ _
  unfold State.episodeSample
  generalize (if s.qualifies r then 0 else e.quiet + 1) = quiet
  simp only
  split_ifs
  · exact hmode _
  · exact State.update_only _ _ _
  · exact hmode _

theorem State.gduSample_only (s : State) (r : SampleRecord) : OnlyDetects s (s.gduSample r) := by
  unfold State.gduSample
  split
  · split
    · exact OnlyDetects.mapGdu _ _
    · exact OnlyDetects.mapGdu _ _
    · split
      · exact State.onset_only _ _
      · exact OnlyDetects.mapGdu _ _
    · exact State.episodeSample_only _ _ _
  · exact OnlyDetects.mapGdu _ _

/-! #### Sensor Front End -/

/-- `t` differs from `s` at most as a sample may make it differ. -/
def OnlySamples (s t : State) : Prop :=
  t = { s with
    pins := t.pins, sfe := t.sfe, gdu := t.gdu, tracks := t.tracks, nq := t.nq, qlc := t.qlc
    raised := t.raised
    scs := { s.scs with
      faults := t.scs.faults, healthArm := t.scs.healthArm, quietEpoch := t.scs.quietEpoch } }

theorem OnlySamples.works {s t : State} (h : OnlySamples s t) : OnlyWorks s t := by
  unfold OnlyWorks OnlySamples at *
  rw [h]

/-- R19: the three fault events of a sample, between SFE's updates and GDU's sample. -/
def State.sampleFaults (s : State) (before after : Sfe) : State :=
  ((s.risingFault before.anemoSilent after.anemoSilent .anemoSilent).risingFault before.vaneErratic
    after.vaneErratic .vaneErratic).risingFault before.dustLamp after.dustLamp .dustLamp

/-- R19: SFE's part of a sample, with the levels it brings. -/
def State.sampled (s : State) (vane : BitVec 4) (lamp : Bool) : State :=
  { s with pins := { s.pins with vane := vane, lamp := lamp }, sfe := s.sampleSfe vane lamp }

/-- R19: a sample is SFE's part, then the fault events, then GDU's sample of the record. -/
theorem State.sample_eq (s : State) (vane : BitVec 4) (lamp : Bool) :
    s.sample vane lamp =
      ((s.sampled vane lamp).sampleFaults s.sfe (s.sampleSfe vane lamp)).gduSample
        ((s.sampled vane lamp).sampleFaults s.sfe (s.sampleSfe vane lamp)).sampleRecord := rfl

theorem State.sampleFaults_only (s : State) (before after : Sfe) :
    OnlyFaults s (s.sampleFaults before after) :=
  ((s.risingFault_only _ _ _).trans (State.risingFault_only _ _ _ _)).trans (State.risingFault_only _ _ _ _)

theorem State.sample_only (s : State) (vane : BitVec 4) (lamp : Bool) : OnlySamples s (s.sample vane lamp) := by
  have hfaults := (s.sampled vane lamp).sampleFaults_only s.sfe (s.sampleSfe vane lamp)
  have hgdu := State.gduSample_only ((s.sampled vane lamp).sampleFaults s.sfe (s.sampleSfe vane lamp))
    ((s.sampled vane lamp).sampleFaults s.sfe (s.sampleSfe vane lamp)).sampleRecord
  rw [State.sample_eq]
  unfold OnlySamples
  unfold OnlyFaults at hfaults
  unfold OnlyDetects at hgdu
  rw [hgdu, hfaults]
  rfl

theorem State.ackChange_frame (s : State) (level : Bool) :
    s.ackChange level =
      { s with sfe := (s.ackChange level).sfe, raised := (s.ackChange level).raised } := by
  unfold State.ackChange
  split
  · simp only
    split
    · rw [State.setAckPending_frame]
      rfl
    · rfl
  · rfl

/-! #### Zone Evaluator -/

/-- `t` differs from `s` at most in its zone states and as posts may make it differ. -/
def OnlyEvaluates (s t : State) : Prop :=
  t = { s with
    zev := { s.zev with zones := t.zev.zones }, nq := t.nq, qlc := t.qlc, raised := t.raised }

theorem OnlyEvaluates.trans {s t u : State} (h : OnlyEvaluates s t) (k : OnlyEvaluates t u) :
    OnlyEvaluates s u := by
  unfold OnlyEvaluates at *
  rw [k, h]

theorem OnlyEvaluates.of_posts {s t : State} (h : OnlyPosts s t) : OnlyEvaluates s t := by
  unfold OnlyEvaluates OnlyPosts at *
  rw [h]

theorem OnlyEvaluates.works {s t : State} (h : OnlyEvaluates s t) : OnlyWorks s t := by
  unfold OnlyWorks OnlyEvaluates at *
  rw [h]

theorem State.evaluate_only (s : State) : OnlyEvaluates s s.evaluate := by
  have hzones : OnlyEvaluates s (s.mapZev fun v => { v with zones := s.zev.zones.map s.evalZone }) := rfl
  unfold State.evaluate
  simp only
  split
  · split
    · exact hzones.trans (.of_posts (State.postChanges_only _ _ _))
    · exact hzones
  · rfl

theorem State.ackEvaluation_works (s : State) : OnlyWorks s s.ackEvaluation := by
  unfold State.ackEvaluation
  split
  · have hflag : OnlyWorks s (s.mapSfe fun f => { f with ackPending := false }) := rfl
    exact (hflag.trans (State.evaluate_only _).works).trans rfl
  · rfl

/-! #### Reports and heard notices -/

/-- `t` differs from `s` at most in its received records and in what has been raised. -/
def OnlyReports (s t : State) : Prop :=
  t = { s with zev := { s.zev with received := t.zev.received }, raised := t.raised }

theorem OnlyReports.refl (s : State) : OnlyReports s s := rfl

theorem OnlyReports.trans {s t u : State} (h : OnlyReports s t) (k : OnlyReports t u) : OnlyReports s u := by
  unfold OnlyReports at *
  rw [k, h]

theorem State.takeReport_only (s : State) (zone : Nat) (level : Level) (mark : Option Bool) :
    OnlyReports s (s.takeReport zone level mark) := by
  unfold State.takeReport
  split
  · split
    · rfl
    · simp only
      split <;> rfl
  · rfl

theorem State.takePairs_only (s : State) (sender : Nat) (ps : List ZonePair) :
    OnlyReports s (s.takePairs sender ps) := by
  induction ps generalizing s with
  | nil => rfl
  | cons p ps ih =>
    simp only [State.takePairs]
    split
    · exact (State.takeReport_only _ _ _ _).trans (ih _)
    · exact ih _

/-- `t` differs from `s` at most in roster, offset set and received records, and in what has been raised. -/
def OnlyHears (s t : State) : Prop :=
  t = { s with
    zev := { s.zev with received := t.zev.received }
    prt := { s.prt with roster := t.prt.roster, offsets := t.prt.offsets }, raised := t.raised }

theorem OnlyHears.refl (s : State) : OnlyHears s s := rfl

theorem OnlyHears.trans {s t u : State} (h : OnlyHears s t) (k : OnlyHears t u) : OnlyHears s u := by
  unfold OnlyHears at *
  rw [k, h]

theorem OnlyHears.of_reports {s t : State} (h : OnlyReports s t) : OnlyHears s t := by
  unfold OnlyHears OnlyReports at *
  rw [h]

theorem OnlyHears.works {s t : State} (h : OnlyHears s t) : OnlyWorks s t := by
  unfold OnlyWorks OnlyHears at *
  rw [h]

theorem State.writeRoster_hears (s : State) (n : Nat) (old new : RosterEntry) :
    OnlyHears s (s.writeRoster n old new) := by
  unfold State.writeRoster State.rosterChanged
  simp only
  split_ifs <;> rfl

theorem State.heard_only (s : State) (n : Nat) : OnlyHears s (s.heard n) := by
  unfold State.heard
  split
  · rfl
  · split
    · rfl
    · exact s.writeRoster_hears _ _ _

theorem State.collect_only (s : State) (n : Nat) (offset : Int) (lock : Lock) :
    OnlyHears s (s.collect n offset lock) := by
  unfold State.collect
  split <;> rfl

theorem State.takePresence_only (s : State) (n : Nat) (a : Announced) (stamp arrival : Time) :
    OnlyHears s (s.takePresence n a stamp arrival) := by
  unfold State.takePresence
  split
  · rfl
  · split
    · rfl
    · exact ((s.writeRoster_hears _ _ _).trans (State.collect_only _ _ _ _)).trans
        (.of_reports (State.takePairs_only _ _ _))

/-! #### Received frames -/

/-- `t` differs from `s` at most as the checks and the dispatch of a frame may make it differ. -/
def OnlyReceives (s t : State) : Prop :=
  t = { s with
    tracks := t.tracks, nq := t.nq, qlc := t.qlc, raised := t.raised
    zev := { s.zev with received := t.zev.received }
    prt := { s.prt with roster := t.prt.roster, offsets := t.prt.offsets }
    scs := { s.scs with
      faults := t.scs.faults, healthArm := t.scs.healthArm, quietEpoch := t.scs.quietEpoch } }

theorem OnlyReceives.refl (s : State) : OnlyReceives s s := rfl

theorem OnlyReceives.trans {s t u : State} (h : OnlyReceives s t) (k : OnlyReceives t u) :
    OnlyReceives s u := by
  unfold OnlyReceives at *
  rw [k, h]

theorem OnlyReceives.of_faults {s t : State} (h : OnlyFaults s t) : OnlyReceives s t := by
  unfold OnlyReceives OnlyFaults at *
  rw [h]

theorem OnlyReceives.of_posts {s t : State} (h : OnlyPosts s t) : OnlyReceives s t :=
  .of_faults (.of_posts h)

theorem OnlyReceives.of_slots {s t : State} (h : OnlySlots s t) : OnlyReceives s t := by
  unfold OnlyReceives OnlySlots at *
  rw [h]

theorem OnlyReceives.of_hears {s t : State} (h : OnlyHears s t) : OnlyReceives s t := by
  unfold OnlyReceives OnlyHears at *
  rw [h]

theorem OnlyReceives.works {s t : State} (h : OnlyReceives s t) : OnlyWorks s t := by
  unfold OnlyWorks OnlyReceives at *
  rw [h]

theorem State.reject_only (s : State) (cause : Nat) (frame : List Byte) :
    OnlyPosts s (s.reject cause frame) := rfl

theorem State.dispatchSighting_only (s : State) (frame : List Byte) (sender : Nat) (p : SightingNotice) :
    OnlyReceives s (s.dispatchSighting frame sender p) := by
  unfold State.dispatchSighting
  simp only
  generalize hr : s.admission _ true = a
  have hslots : OnlySlots s a.2 := hr ▸ State.admission_only _ _ _
  obtain ⟨answer, t⟩ := a
  cases answer with
  | admitted => exact .of_slots hslots
  | duplicate => exact (OnlyReceives.of_slots hslots).trans (.of_posts (State.reject_only _ _ _))
  | full => exact (OnlyReceives.of_slots hslots).trans (.of_posts (State.reject_only _ _ _))

theorem State.dispatch_only (s : State) (k : FrameKind) (frame : List Byte) (arrival : Time) :
    OnlyReceives s (s.dispatch k frame arrival) := by
  have hreject : ∀ cause, OnlyReceives s (s.reject cause frame) := fun _ =>
    .of_posts (s.reject_only _ _)
  cases k with
  | presence =>
    simp only [State.dispatch]
    split
    · exact hreject 6
    · exact .of_hears (State.takePresence_only _ _ _ _ _)
  | sighting =>
    simp only [State.dispatch]
    split
    · exact hreject 6
    · split
      · exact hreject 7
      · exact State.dispatchSighting_only _ _ _ _
  | zone =>
    simp only [State.dispatch]
    split
    · exact hreject 6
    · split_ifs
      · exact hreject 8
      · exact hreject 9
      · exact hreject 10
      · exact .of_hears (.of_reports (State.takeReport_only _ _ _ _))

theorem State.checkSender_only (s : State) (k : FrameKind) (frame : List Byte) (arrival : Time) :
    OnlyReceives s (s.checkSender k frame arrival) := by
  unfold State.checkSender
  simp only
  have hheard := OnlyReceives.of_hears (s.heard_only (byteAt frame 2))
  split_ifs
  · exact .of_posts (s.reject_only _ _)
  · exact (hheard.trans (.of_posts (State.reject_only _ _ _))).trans
      (.of_faults (State.faultEvent_only _ _))
  · exact hheard.trans (.of_posts (State.reject_only _ _ _))
  · exact hheard.trans (State.dispatch_only _ _ _ _)

theorem State.receive_only (s : State) (frame : List Byte) (arrival : Time) :
    OnlyReceives s (s.receive frame arrival) := by
  have hrotate : OnlyReceives s s.advanceRotation := rfl
  unfold State.receive
  split
  · exact .of_posts (s.reject_only _ _)
  · simp only
    split
    · exact hrotate.trans (.of_posts (State.reject_only _ _ _))
    · split
      · exact hrotate.trans (State.checkSender_only _ _ _ _)
      · exact hrotate.trans (.of_posts (State.reject_only _ _ _))

theorem State.endFrame_only (s : State) (r : RxFrame) : OnlyReceives s (s.endFrame r) :=
  (OnlyReceives.of_posts (OnlyPosts.mapQlc s _)).trans (State.receive_only _ _ _)

theorem State.frameReceived_only (s : State) (chars : List Byte) : OnlyReceives s (s.frameReceived chars) := by
  have hread : OnlyReceives s s.charsRead := rfl
  unfold State.frameReceived State.readChars
  split
  · simp only
    split
    · exact hread.trans (State.endFrame_only _ _)
    · split
      · rfl
      · rfl
  · rfl

theorem State.endTruncated_only (s : State) : OnlyReceives s s.endTruncated := by
  unfold State.endTruncated
  split
  · exact s.endFrame_only _
  · rfl

theorem State.endWhole_only (s : State) : OnlyReceives s s.endWhole := by
  unfold State.endWhole
  split
  · split
    · exact s.endFrame_only _
    · rfl
  · rfl

/-! #### The line -/

theorem State.lineBusy_only (s : State) : OnlyPosts s s.lineBusy := by
  unfold State.lineBusy
  split
  · rfl
  · exact s.stopHoldoff_only.trans (OnlyPosts.mapQlc _ _)

theorem State.lineIdle_only (s : State) : OnlyReceives s s.lineIdle := by
  unfold State.lineIdle
  split
  · exact ((OnlyReceives.of_posts s.stopHoldoff_only).trans (State.endTruncated_only _)).trans
      (.of_posts ((OnlyPosts.mapQlc _ _).trans (State.follow_only _)))
  · rfl

theorem State.startSending_only (s : State) (e : Entry) : OnlyPosts s (s.startSending e) :=
  (s.stopHoldoff_only.trans (OnlyPosts.mapNq _ _)).trans (OnlyPosts.mapQlc _ _)

theorem State.holdoffExpiry_only (s : State) (quiet : Nat) : OnlyPosts s (s.holdoffExpiry quiet) := by
  unfold State.holdoffExpiry
  split
  · rfl
  · simp only
    split
    · split
      · exact (OnlyPosts.mapQlc s _).trans (State.startSending_only _ _)
      · rfl
    · rfl

theorem State.setAnnounced_only (s : State) (n : Notice) : OnlyEvaluates s (s.setAnnounced n) := by
  unfold State.setAnnounced
  split <;> rfl

theorem State.transmitSuccess_only (s : State) : OnlyEvaluates s s.transmitSuccess := by
  unfold State.transmitSuccess
  split
  · rfl
  · simp only
    have hstop : OnlyEvaluates s s.stopDriving := rfl
    have hrest : ∀ u k, OnlyEvaluates s u →
        OnlyEvaluates s (u.removeEntry k).releaseAfterSuccess.advanceRotation.follow := fun u k hu =>
      hu.trans (.of_posts ((((OnlyPosts.mapNq u _).trans (State.releaseAfterSuccess_only _)).trans
        (OnlyPosts.mapQlc _ _)).trans (State.follow_only _)))
    refine hrest _ _ ?_
    split
    · exact hstop.trans (State.setAnnounced_only _ _)
    · exact hstop

theorem State.collided_only (s : State) (k : Key) : OnlyFaults s (s.collided k) := by
  have hstop : OnlyFaults s s.readOn.stopDriving := rfl
  unfold State.collided
  simp only
  split
  · exact hstop
  · split
    · exact hstop.trans (.of_posts (((OnlyPosts.mapNq _ _).trans (State.releaseHeld_only _)).trans
        (State.follow_only _)))
    · exact ((hstop.trans (.of_posts ((OnlyPosts.mapNq _ _).trans (State.releaseHeld_only _)))).trans
        (State.faultEvent_only _ _)).trans (.of_posts (State.follow_only _))

theorem State.collision_only (s : State) : OnlyReceives s s.collision := by
  unfold State.collision
  split
  · rfl
  · exact (OnlyReceives.of_faults (s.collided_only _)).trans (State.endWhole_only _)

/-! #### The rewrite and the pre-check -/

/-- `t` differs from `s` at most as a pre-check may make it differ. -/
def OnlyRewrites (s t : State) : Prop :=
  t = { s with gdu := t.gdu, tracks := t.tracks, nq := t.nq, qlc := t.qlc, raised := t.raised }

theorem OnlyRewrites.trans {s t u : State} (h : OnlyRewrites s t) (k : OnlyRewrites t u) :
    OnlyRewrites s u := by
  unfold OnlyRewrites at *
  rw [k, h]

theorem OnlyRewrites.edit (s : State) (g : Gdu) (l : List (Option Track)) (r : List Instr) :
    OnlyRewrites s { s with gdu := g, tracks := l, raised := r } := rfl

theorem OnlyRewrites.of_slots {s t : State} (h : OnlySlots s t) : OnlyRewrites s t := by
  unfold OnlyRewrites OnlySlots at *
  rw [h]

theorem OnlyRewrites.of_posts {s t : State} (h : OnlyPosts s t) : OnlyRewrites s t := by
  unfold OnlyRewrites OnlyPosts at *
  rw [h]

theorem OnlyRewrites.works {s t : State} (h : OnlyRewrites s t) : OnlyWorks s t := by
  unfold OnlyWorks OnlyRewrites at *
  rw [h]

/-- R79: all that a rewrite that is not refused does. -/
theorem State.rewrite_some {s t : State} {p q : TrackId} (h : s.rewrite p q = some t) :
    ∃ tp tq x, s.trackOf p = some tp ∧ s.trackOf q = some tq ∧ tq.onlyOwn s.scs.own = some x ∧
      sightingOf tp.sightings s.scs.own = none ∧
      t = ({ s with
        tracks := replaceTrack (replaceTrack s.tracks p (some ((tp.joined x).complete s.tables))) q none
        gdu := s.gdu.follow p q, raised := s.raised ++ [.evaluation] } : State).fadeTrack p := by
  unfold State.rewrite at h
  split at h
  · next tp tq hp hq =>
    split at h
    · next x hx =>
      split at h
      · next hown =>
        exact ⟨tp, tq, x, hp, hq, hx, Option.isNone_iff_eq_none.1 hown, (Option.some.inj h).symm⟩
      · simp at h
    · simp at h
  · simp at h

theorem State.rewrite_only {s t : State} {p q : TrackId} (h : s.rewrite p q = some t) :
    OnlyRewrites s t := by
  obtain ⟨tp, tq, x, -, -, -, -, rfl⟩ := State.rewrite_some h
  exact (OnlyRewrites.edit s _ _ _).trans (.of_slots (State.fadeTrack_only _ _))

theorem State.preCheck_only (s : State) (p : TrackId) : OnlyRewrites s (s.preCheck p) := by
  unfold State.preCheck
  split
  · rfl
  · split
    · rfl
    · split
      · rfl
      · split
        · next hr _ =>
          exact (State.rewrite_only hr).trans
            (.of_posts ((OnlyPosts.mapNq _ _).trans (State.follow_only _)))
        · rfl

/-! #### Common time -/

/-- `t` differs from `s` at most in time and roster, in its slots and in what has been raised. -/
def OnlyCounts (s t : State) : Prop :=
  t = { s with prt := t.prt, tracks := t.tracks, raised := t.raised }

theorem OnlyCounts.refl (s : State) : OnlyCounts s s := rfl

theorem OnlyCounts.trans {s t u : State} (h : OnlyCounts s t) (k : OnlyCounts t u) : OnlyCounts s u := by
  unfold OnlyCounts at *
  rw [k, h]

theorem OnlyCounts.mapPrt (s : State) (f : Prt → Prt) : OnlyCounts s (s.mapPrt f) := rfl

theorem OnlyCounts.works {s t : State} (h : OnlyCounts s t) : OnlyWorks s t := by
  unfold OnlyWorks OnlyCounts at *
  rw [h]

theorem OnlyCounts.of_deadlines {s t : State} (h : OnlyDeadlines s t) : OnlyCounts s t := by
  obtain ⟨n, h⟩ := h
  unfold OnlyCounts
  rw [h]

theorem State.raiseAtCount_frame (s : State) : s.raiseAtCount = { s with raised := s.raiseAtCount.raised } := by
  unfold State.raiseAtCount
  simp only
  split_ifs <;> rfl

theorem State.raiseAtCount_only (s : State) : OnlyCounts s s.raiseAtCount := by
  unfold OnlyCounts
  rw [State.raiseAtCount_frame]

theorem State.count_only (s : State) : OnlyCounts s s.count := by
  have htime : OnlyCounts s (s.mapPrt fun p => { p with time := p.time + 1 }) := rfl
  exact State.unlessHeld_cases (P := OnlyCounts s) htime fun _ =>
    (htime.trans (State.raiseAtCount_only _)).trans (.of_deadlines (State.passDeadlines_only _))

theorem State.gainOrWithhold_only (s : State) (gain : Bool) : OnlyCounts s (s.gainOrWithhold gain) := by
  unfold State.gainOrWithhold
  split
  · exact s.count_only
  · rfl

theorem State.slewStep_only (s : State) : OnlyCounts s s.slewStep := by
  unfold State.slewStep
  split
  · rfl
  · exact (OnlyCounts.mapPrt s _).trans (State.gainOrWithhold_only _ _)

theorem State.trimStep_only (s : State) : OnlyCounts s s.trimStep := by
  unfold State.trimStep
  split
  · rfl
  · exact (OnlyCounts.mapPrt s _).trans (State.gainOrWithhold_only _ _)

theorem State.slewMs_only (s : State) : OnlyCounts s s.slewMs := by
  unfold State.slewMs
  split_ifs
  · rfl
  · rfl
  · exact s.slewStep_only

theorem State.trimMs_only (s : State) : OnlyCounts s s.trimMs := by
  unfold State.trimMs
  split_ifs
  · rfl
  · rfl
  · exact s.trimStep_only

theorem State.countMs_only (s : State) : OnlyCounts s s.countMs := by
  unfold State.countMs
  split
  · exact s.count_only
  · rfl

/-- R164: the counts of a millisecond, its gains and withholds spent. -/
def State.clockMs (s : State) : State := s.slewMs.trimMs.countMs

theorem State.clockMs_only (s : State) : OnlyCounts s s.clockMs :=
  (s.slewMs_only.trans (State.trimMs_only _)).trans (State.countMs_only _)

theorem State.silence_counts (s : State) (n : Nat) : OnlyCounts s (s.silence n) :=
  .of_deadlines (s.silence_only n)

/-! #### The epoch boundary -/

/-- `t` differs from `s` at most as the entry into OPERATING and a step or slew may make it differ. -/
def OnlyBoundary (s t : State) : Prop :=
  t = { s with
    prt := t.prt, zev := { s.zev with zones := t.zev.zones }, nq := t.nq, qlc := t.qlc, raised := t.raised
    tracks := t.tracks
    scs := { s.scs with
      station := t.scs.station, joining := t.scs.joining
      faults := t.scs.faults, healthArm := t.scs.healthArm, quietEpoch := t.scs.quietEpoch } }

theorem OnlyBoundary.refl (s : State) : OnlyBoundary s s := rfl

theorem OnlyBoundary.trans {s t u : State} (h : OnlyBoundary s t) (k : OnlyBoundary t u) :
    OnlyBoundary s u := by
  unfold OnlyBoundary at *
  rw [k, h]

theorem OnlyBoundary.mapPrt (s : State) (f : Prt → Prt) : OnlyBoundary s (s.mapPrt f) := rfl

theorem OnlyBoundary.of_faults {s t : State} (h : OnlyFaults s t) : OnlyBoundary s t := by
  unfold OnlyBoundary OnlyFaults at *
  rw [h]

theorem OnlyBoundary.of_counts {s t : State} (h : OnlyCounts s t) : OnlyBoundary s t := by
  unfold OnlyBoundary OnlyCounts at *
  rw [h]

theorem State.stepTime_only (s : State) (c : Int) : OnlyBoundary s (s.stepTime c) := rfl

theorem State.slewTime_only (s : State) (c : Int) : OnlyBoundary s (s.slewTime c) := by
  unfold State.slewTime
  simp only
  split
  · exact (OnlyBoundary.mapPrt _ _).trans (.of_faults (State.faultEvent_only _ _))
  · rfl

theorem State.applyCorrection_only (s : State) (c : Int) : OnlyBoundary s (s.applyCorrection c) := by
  unfold State.applyCorrection
  simp only
  split
  · exact (OnlyBoundary.mapPrt _ _).trans (State.stepTime_only _ _)
  · exact (OnlyBoundary.mapPrt _ _).trans (State.slewTime_only _ _)

theorem State.enterOperating_only (s : State) : OnlyBoundary s s.enterOperating := by
  have hstation : OnlyBoundary s (s.mapScs fun c => { c with station := .operating }) := rfl
  exact hstation.trans (.of_faults (.of_posts ((State.postLevels_only _ _).trans (State.follow_only _))))

theorem State.boundaryNotice_only (s : State) : OnlyBoundary s s.boundaryNotice := by
  have hcount : OnlyBoundary s (s.mapScs fun c => { c with joining := c.joining + 1 }) := rfl
  have hrearm : ∀ u : State, OnlyBoundary u u.rearm := fun _ => rfl
  unfold State.boundaryNotice
  simp only
  split_ifs
  · exact (hcount.trans (State.enterOperating_only _)).trans (hrearm _)
  · exact hcount.trans (hrearm _)
  · exact hrearm _

theorem State.epochBoundary_only (s : State) : OnlyBoundary s s.epochBoundary := by
  have hsettle : ∀ (u : State) f, OnlyBoundary s u → OnlyBoundary s (u.mapPrt f).boundaryNotice :=
    fun u f hu => hu.trans ((OnlyBoundary.mapPrt _ _).trans (State.boundaryNotice_only _))
  unfold State.epochBoundary
  simp only
  refine hsettle _ _ ?_
  split
  · exact s.applyCorrection_only _
  · rfl

theorem State.boundaryTaken_only (s : State) : OnlyBoundary s s.boundaryTaken := by
  unfold State.boundaryTaken
  simp only
  split
  · exact s.epochBoundary_only
  · exact s.epochBoundary_only.trans (.of_counts (.of_deadlines (State.passDeadlines_only _)))

end Sys2Proof.Machine

/-! ### Every command completes and leaves the queue of commands alone -/

namespace Sys2Proof.Machine

theorem OnlyWorks.pending {s t : State} (h : OnlyWorks s t) : t.pending = s.pending := by rw [h]
theorem OnlyBoundary.pending {s t : State} (h : OnlyBoundary s t) : t.pending = s.pending := by rw [h]

theorem OnlyWorks.takeEvent (s : State) (p : Instr → Bool) : OnlyWorks s (s.takeEvent p) := rfl

/-- What every claim `f` of the working blocks keeps to, its guard by RST and its waiting event keep to. -/
theorem OnlyWorks.claim {f : State → State} (hf : ∀ u, OnlyWorks u (f u)) (s : State) (p : Instr → Bool) :
    OnlyWorks s ((s.takeEvent p).unlessHeld f) :=
  State.unlessHeld_cases (P := OnlyWorks s) rfl fun _ => (OnlyWorks.takeEvent s p).trans (hf _)

/-- The commands whose effect is in the working blocks alone. -/
def ofBlocks : Instr → Bool
  | .rstAssert | .sampleEvent _ _ | .pulseEdge _ | .supprTransition _ | .ackTransition _ => true
  | .lineBusy | .lineIdle | .holdoffExpiry _ | .transmitSuccess | .collision | .frameReceived _ => true
  | .preCheck _ | .fadeDeadline _ | .closeDeadline _ | .silenceDeadline _ => true
  | .tick | .evaluation | .ackEvaluation | .slewStep | .trimStep | .schedulePoint => true
  | _ => false

theorem State.schedulePoint_only (s : State) : OnlyPosts s s.schedulePoint := by
  cases h : s.active
  · rw [State.schedulePoint_inactive h]
    rfl
  · rw [State.schedulePoint_active h]
    exact s.post_only _ _

/-- A command of the working blocks leaves tables, store, setup port, station state and waiting commands. -/
theorem State.after_works {c : Instr} (h : ofBlocks c = true) (s : State) : OnlyWorks s (s.after c) := by
  have claim : ∀ {f : State → State}, (∀ u, OnlyWorks u (f u)) → OnlyWorks s (s.unlessHeld f) := fun hf =>
    State.unlessHeld_cases (P := OnlyWorks s) (.refl s) fun _ => hf s
  cases c with
  | rstAssert => rfl
  | sampleEvent vane lamp => exact .claim (fun u => (u.sample_only vane lamp).works) s _
  | pulseEdge line => exact claim (f := fun s => s.mapSfe fun f => f.pulse line) fun _ => rfl
  | supprTransition level =>
    exact .claim (f := fun s => { s with
      pins := { s.pins with suppr := level }, sfe := s.sfe.supprChange level s.ownRec.supprHigh })
      (fun _ => rfl) s _
  | ackTransition level =>
    refine .claim (f := fun s => ({ s with pins := { s.pins with ack := level } } : State).ackChange level)
      (fun u => ?_) s _
    have h := ({ u with pins := { u.pins with ack := level } } : State).ackChange_frame level
    rw [h]
    rfl
  | lineBusy => exact claim fun u => u.lineBusy_only.works
  | lineIdle => exact .claim (fun u => u.lineIdle_only.works) s _
  | holdoffExpiry quiet => exact .claim (fun u => (u.holdoffExpiry_only quiet).works) s _
  | transmitSuccess => exact claim fun u => u.transmitSuccess_only.works
  | collision => exact claim fun u => u.collision_only.works
  | frameReceived chars => exact claim fun u => (u.frameReceived_only chars).works
  | preCheck id => exact .claim (fun u => (u.preCheck_only id).works) s _
  | fadeDeadline id => exact .claim (fun u => (u.fadeTrack_only id).works) s _
  | closeDeadline id => exact .claim (fun u => (u.closeTrack_only id).works) s _
  | silenceDeadline n => exact .claim (fun u => (u.silence_only n).works) s _
  | tick => exact .claim (fun u => u.evaluate_only.works) s _
  | evaluation => exact .claim (fun u => u.evaluate_only.works) s _
  | ackEvaluation => exact .claim (fun u => u.ackEvaluation_works) s _
  | slewStep => exact s.slewStep_only.works
  | trimStep => exact s.trimStep_only.works
  | schedulePoint => exact .claim (fun u => u.schedulePoint_only.works) s _
  | _ => cases h

/-! #### The setup port and the resets -/

/-- What a command of the setup port keeps of the queue of commands. -/
theorem State.command_pending {s : State} {ok : StationState → Bool} {f : State → State}
    (hf : (f s).pending = s.pending) : (s.command ok f).pending = s.pending :=
  State.command_cases (P := fun t => t.pending = s.pending) rfl (fun _ => rfl) fun _ _ _ => hf

theorem State.enterJoining_pending (s : State) : s.enterJoining.pending = s.pending := rfl

theorem State.restart_pending (s : State) : s.restart.pending = s.pending := s.stopHoldoff_only.pending

theorem State.startCmd_pending (s : State) : s.startCmd.pending = s.pending := by
  unfold State.startCmd
  simp only
  split
  · rfl
  · split <;> rfl

theorem State.onChannel_pending (s : State) {f : State → Channel → State}
    (hf : ∀ c, (f s c).pending = s.pending) : (s.onChannel f).pending = s.pending := by
  unfold State.onChannel
  split
  · exact hf _
  · rfl
  · rfl

theorem State.channelIn_pending (s : State) (c : Channel) : (s.channelIn c).pending = s.pending := by
  rw [State.channelIn_frame]

theorem State.commandWrite_pending (s : State) (code : Byte) : (s.commandWrite code).pending = s.pending := by
  unfold State.commandWrite
  split
  · exact State.command_pending rfl
  · exact State.command_pending rfl
  · exact State.command_pending rfl
  · exact State.command_pending s.startCmd_pending
  · exact State.command_pending s.restart_pending
  · exact State.command_pending (State.follow_only _).pending
  · exact State.command_pending (s.onChannel_pending fun _ => rfl)
  · exact State.command_pending (s.onChannel_pending s.channelIn_pending)
  · refine State.throughPort_cases (P := fun t => t.pending = s.pending) rfl fun _ => ?_
    split <;> rfl

theorem State.portWrite_pending (s : State) (index : Nat) (data : Byte) :
    (s.portWrite index data).pending = s.pending := by
  have guarded : ∀ (b : State → Bool) (f : State → State), (f s).pending = s.pending →
      (s.throughPort fun s => if b s then f s else s).pending = s.pending := fun b f hf =>
    State.throughPort_cases (P := fun t => t.pending = s.pending) rfl fun _ => by
      split
      · exact hf
      · rfl
  unfold State.portWrite
  split
  · exact s.commandWrite_pending data
  · exact guarded _ _ rfl
  · exact guarded _ _ rfl
  · exact guarded _ _ rfl
  · exact guarded _ _ rfl
  · exact guarded _ _ rfl
  · exact guarded _ _ rfl
  · rfl

/-- What a reading row of the setup port keeps: all but the setup port's own registers. -/
def OnlyPort (s t : State) : Prop :=
  t = { s with scs := { s.scs with
    entryPtr := t.scs.entryPtr, byteOff := t.scs.byteOff, viewOff := t.scs.viewOff, sdout := t.scs.sdout } }

theorem Scs.advanceEntry_frame (c : Scs) :
    c.advanceEntry =
      { c with entryPtr := c.advanceEntry.entryPtr, byteOff := c.advanceEntry.byteOff } := by
  unfold Scs.advanceEntry
  split <;> rfl

theorem State.entryRead_only (s : State) : OnlyPort s s.entryRead := by
  refine State.throughPort_cases (P := OnlyPort s) rfl fun _ => ?_
  simp only
  split
  · change OnlyPort s { s with scs := { s.scs.advanceEntry with sdout := _ } }
    rw [Scs.advanceEntry_frame]
    rfl
  · rfl

theorem State.viewRead_only (s : State) : OnlyPort s s.viewRead := by
  refine State.throughPort_cases (P := OnlyPort s) rfl fun _ => ?_
  split
  · split <;> rfl
  · rfl

theorem OnlyPort.pending {s t : State} (h : OnlyPort s t) : t.pending = s.pending := by rw [h]

theorem State.windowExpires_pending (s : State) : s.windowExpires.pending = s.pending := by
  unfold State.windowExpires
  split_ifs <;> rfl

theorem State.commitDone_pending (s : State) : s.commitDone.pending = s.pending := by
  unfold State.commitDone
  split <;> rfl

theorem State.programmingFails_pending (s : State) (table entry : Nat) :
    (s.programmingFails table entry).pending = s.pending := (State.faultEvent_only _ _).works.pending

theorem State.storePage_pending (s : State) (readBack : List Byte) :
    (s.storePage readBack).pending = s.pending := by
  unfold State.storePage
  split
  · rfl
  · split
    · unfold State.pageDone
      simp only
      split_ifs
      · rfl
      · exact State.programmingFails_pending _ _ _
      · rfl
    · rfl

theorem State.storeHeader_pending (s : State) (valid : Bool) (checksum : Word16) :
    (s.storeHeader valid checksum).pending = s.pending := by
  unfold State.storeHeader
  split
  · rfl
  · split
    · rfl
    · unfold State.headerDone
      split_ifs
      · rfl
      · exact State.programmingFails_pending _ _ _
      · rfl

/-- No command adds to the queue of commands or takes from it. -/
theorem State.after_pending (s : State) (c : Instr) : (s.after c).pending = s.pending := by
  have claim : ∀ {f : State → State}, (∀ u, (f u).pending = u.pending) →
      (s.unlessHeld f).pending = s.pending := fun hf =>
    State.unlessHeld_cases (P := fun t => t.pending = s.pending) rfl fun _ => hf s
  have claimed : ∀ {f : State → State} (p : Instr → Bool), (∀ u, (f u).pending = u.pending) →
      ((s.takeEvent p).unlessHeld f).pending = s.pending := fun p hf =>
    State.unlessHeld_cases (P := fun t => t.pending = s.pending) rfl fun _ => hf (s.takeEvent p)
  cases hc : ofBlocks c
  · cases c with
    | powerOn sn suppr ack => rfl
    | lineReset sn suppr ack => rfl
    | windowExpiry => exact claimed _ State.windowExpires_pending
    | hold => exact State.command_pending rfl
    | clearBuffer => exact State.command_pending rfl
    | commitPage => exact State.command_pending rfl
    | commitComplete => exact claimed _ State.commitDone_pending
    | start => exact State.command_pending s.startCmd_pending
    | storePageDone readBack => exact claim fun u => u.storePage_pending readBack
    | storeHeaderDone valid checksum => exact claim fun u => u.storeHeader_pending valid checksum
    | restart => exact State.command_pending s.restart_pending
    | clearFaults => exact State.command_pending (State.follow_only _).pending
    | channelOut => exact State.command_pending (s.onChannel_pending fun _ => rfl)
    | channelIn =>
      exact State.command_pending (s.onChannel_pending s.channelIn_pending)
    | unknownCommand code => exact s.commandWrite_pending code
    | tableSelectWrite data => exact s.portWrite_pending 0x05 data
    | entryPointerWrite data => exact s.portWrite_pending 0x06 data
    | entryDataWrite data => exact s.portWrite_pending 0x07 data
    | entryDataRead => exact s.entryRead_only.pending
    | expectedChecksumH data => exact s.portWrite_pending 0x08 data
    | expectedChecksumL data => exact s.portWrite_pending 0x09 data
    | viewSelect code => exact s.portWrite_pending 0x10 code
    | viewData => exact s.viewRead_only.pending
    | registerWriteIgnored index data => exact s.portWrite_pending _ data
    | transactionAbandon => rfl
    | epochBoundary => exact claimed _ fun u => u.boundaryTaken_only.pending
    | _ => cases hc
  · exact (State.after_works hc s).pending

/-- Settles O2: no command stops (`exec_eq`), and each keeps to its blocks, of which the queue of commands is
none. -/
theorem everyCommandCompletes : Obligations.EveryCommandCompletes := fun c s =>
  ⟨s.after c, exec_eq c s, s.after_pending c⟩

/-- Settles O1: the command at the front is what a step takes, by definition. -/
theorem stepTakesFront : Obligations.StepTakesFront := fun _ _ _ => rfl

end Sys2Proof.Machine

/-! ### Resets, the entry into JOINING and the end of the window (R176, R177, R184, R185) -/

namespace Sys2Proof.Machine

/-! #### The cleared blocks (R83, R104, R121, R157, R159) -/

/-- R159: an entry as it is cleared reads so whether its station is listed or not. -/
theorem clearedRoster_asListed {own k : Nat} (hk : k < 32) (listed : Bool) :
    ∃ e, ((clearedRoster own)[k]?).map (RosterEntry.asListed listed) = some e ∧
      EntryIsCleared own (k + 1) e := by
  have hget : (clearedRoster own)[k]? =
      some (RosterEntry.cleared (if k + 1 = own then .self else .absent)) := by
    simp [clearedRoster, hk]
  refine ⟨_, by rw [hget]; rfl, ?_⟩
  by_cases hself : k + 1 = own
  · simp [hself, EntryIsCleared, RosterEntry.asListed, RosterEntry.cleared]
  · cases listed <;> simp [hself, EntryIsCleared, RosterEntry.asListed, RosterEntry.cleared]

/-- R104: the received records are set up for the mirror sources, once each. -/
theorem mem_mirrorSources {m : Memory} {own k : Nat} :
    k ∈ mirrorSources m own ↔ IsMirrorSource m own k := by
  simp only [mirrorSources, IsMirrorSource, List.mem_filter, List.mem_range, List.any_eq_true,
    Bool.and_eq_true, decide_eq_true_eq, Nat.lt_succ_iff]

theorem mirrorSources_nodup (m : Memory) (own : Nat) : (mirrorSources m own).Nodup :=
  List.nodup_range.filter _

/-- What clears slots, queue, offsets and roster and sets the zone states anew has cleared the blocks. -/
theorem BlocksCleared.of_fields {m : Memory} {own : Nat} {t : State} (htracks : t.tracks = emptySlots)
    (hnq : t.nq = Nq.empty) (hoffsets : t.prt.offsets = []) (hroster : t.prt.roster = clearedRoster own)
    (hzev : t.zev = zevSet m own) : BlocksCleared m own t := by
  have hzones : t.zev.zones.map (·.zone) = ownedZones m own := by
    simp [hzev, zevSet, zoneSet, Function.comp_def]
  have hreceived : t.zev.received.map (·.zone) = mirrorSources m own := by
    simp [hzev, zevSet, receivedSet, Function.comp_def]
  refine ⟨htracks, by rw [hnq]; rfl, by rw [hnq]; rfl, hoffsets, fun n h1 h32 => ?_, hzones,
    fun z hz => ?_, fun r hr => ?_, hreceived ▸ mirrorSources_nodup m own,
    fun k => hreceived ▸ mem_mirrorSources⟩
  · obtain ⟨k, rfl⟩ : ∃ k, n = k + 1 := ⟨n - 1, by omega⟩
    simpa [State.rosterOf, hroster] using
      clearedRoster_asListed (own := own) (k := k) (by omega) (stationPresent t.tables (k + 1))
  · simp only [hzev, zevSet, List.mem_map] at hz
    obtain ⟨i, -, rfl⟩ := hz
    exact ⟨rfl, rfl, rfl, rfl, rfl, rfl, rfl, rfl, rfl, rfl⟩
  · simp only [hzev, zevSet, List.mem_map] at hr
    obtain ⟨k, -, rfl⟩ := hr
    exact ⟨rfl, rfl, rfl, rfl⟩

/-- R184: the entry into JOINING clears the blocks and keeps the time state. -/
theorem State.enterJoining_entered (s : State) : JoiningEntered s s.enterJoining :=
  ⟨rfl, rfl, .of_fields rfl rfl rfl rfl rfl, rfl, rfl, rfl, rfl, rfl, rfl, rfl⟩

/-! #### POWER_ON and LINE_RESET (R176) -/

@[simp] theorem Faults.get_none (f : FaultFlag) : Faults.none.get f = false := by
  cases f <;> rfl

/-- Settles O4: Station Control after POWER_ON is `Scs.fresh` on what the store loads. -/
theorem powerOnControl : Obligations.PowerOnControl := by
  intro sn suppr ack s
  refine ⟨_, rfl, rfl, rfl, rfl, rfl, fun hv => ?_, fun hv => ⟨fun a => ?_, ?_⟩, Faults.get_none, rfl, rfl,
    fun a => rfl, rfl, rfl, rfl, rfl, rfl, rfl, rfl, rfl, rfl, rfl, rfl, rfl, rfl, rfl⟩
  · simp [powerOnState, Store.loadedTables, Store.loadedChecksum, Scs.fresh, hv]
  · simp [powerOnState, Store.loadedTables, hv, Memory.read, Memory.blank]
  · simp [powerOnState, Store.loadedChecksum, Scs.fresh, hv]

/-- R126: the sequence register starts at the own number times 2039, which 16 bits hold. -/
theorem seqStart_toNat (sn : BitVec 5) : (seqStart (ownNumber sn)).toNat = (sn.toNat + 1) * 2039 := by
  have := sn.isLt
  simp only [seqStart, ownNumber, BitVec.toNat_ofNat]
  omega

/-- Settles O5: POWER_ON sets every block anew; the cleared ones by `BlocksCleared.of_fields`. -/
theorem powerOnBlocks : Obligations.PowerOnBlocks := fun sn _ _ _ =>
  ⟨_, rfl, .of_fields rfl rfl rfl rfl rfl, rfl, rfl, rfl, rfl, rfl, rfl, rfl, rfl, rfl, rfl, rfl, rfl, rfl,
    rfl, rfl, rfl, rfl, rfl, rfl, rfl, rfl, rfl, Sfe.fresh_inService _ _, rfl, rfl, rfl, rfl, rfl, rfl, rfl,
    rfl, seqStart_toNat sn, rfl, rfl, rfl, rfl, rfl, rfl, rfl, rfl, rfl, rfl, rfl, rfl, rfl⟩

/-- Settles O6: a line reset is `powerOnState` with the fields that R57, R142, R174 and R176 keep. -/
theorem lineResetKeeps : Obligations.LineResetKeeps := fun _ _ _ _ => ⟨_, _, rfl, rfl, rfl⟩

/-! #### RST_ASSERT and the held part (R176, R190) -/

/-- While RST is low no beacon shines and no sounder sounds. -/
theorem State.outputs_held {s : State} (h : s.pins.rstLow = true) (pair : Nat) :
    s.beacon pair = false ∧ s.sounder pair = false := by
  simp [State.beacon, State.sounder, h]

/-- While RST is low the setup port is closed. -/
theorem State.portClosed_of_held {s : State} (h : s.pins.rstLow = true) : s.portOpen = false := by
  simp [State.portOpen, h]

/-- Where no transaction is taken a command of the port has no effect. -/
theorem State.command_closed {s : State} (h : s.portOpen = false) (ok : StationState → Bool)
    (f : State → State) : s.command ok f = s := State.throughPort_closed h _

theorem State.commandWrite_closed {s : State} (h : s.portOpen = false) (code : Byte) :
    s.commandWrite code = s := by
  unfold State.commandWrite
  split
  iterate 8 exact State.command_closed h _ _
  · exact State.throughPort_closed h _

theorem State.portWrite_closed {s : State} (h : s.portOpen = false) (index : Nat) (data : Byte) :
    s.portWrite index data = s := by
  unfold State.portWrite
  split
  · exact State.commandWrite_closed h data
  iterate 6 exact State.throughPort_closed h _
  · rfl

/-- R176: while RST is low a claim changes nothing but the event it takes. -/
theorem exec_held {s : State} (h : s.pins.rstLow = true) {c : Instr} (hc : actsWhileHeld c = false) :
    ∃ r, exec c s = .next { s with raised := r } := by
  have hport := State.portClosed_of_held h
  have unchanged : ∀ {t : State}, t = s → ∃ r, Host.Outcome.next t =
      (.next { s with raised := r } : Answered) := fun ht => ⟨s.raised, by rw [ht]⟩
  have claim : ∀ f : State → State, ∃ r, Host.Outcome.next (s.unlessHeld f) =
      (.next { s with raised := r } : Answered) := fun f => unchanged (State.unlessHeld_low h f)
  have claimed : ∀ (p : Instr → Bool) (f : State → State), ∃ r,
      Host.Outcome.next ((s.takeEvent p).unlessHeld f) = (.next { s with raised := r } : Answered) :=
    fun p f => ⟨s.raised.eraseP p, by rw [State.unlessHeld_low (s := s.takeEvent p) h]; rfl⟩
  have port : ∀ f : State → State, ∃ r, Host.Outcome.next (s.throughPort f) =
      (.next { s with raised := r } : Answered) := fun f => unchanged (State.throughPort_closed hport f)
  cases c with
  | powerOn | rstAssert | lineReset | slewStep | trimStep | transactionAbandon => cases hc
  | pulseEdge | storePageDone | storeHeaderDone | lineBusy | transmitSuccess | collision | frameReceived =>
    exact claim _
  | unknownCommand code => exact unchanged (State.commandWrite_closed hport code)
  | registerWriteIgnored index data => exact unchanged (State.portWrite_closed hport _ data)
  | hold | clearBuffer | commitPage | start | restart | clearFaults | channelOut | channelIn =>
    exact unchanged (State.command_closed hport _ _)
  | tableSelectWrite | entryPointerWrite | entryDataWrite | entryDataRead | expectedChecksumH
  | expectedChecksumL | viewSelect | viewData => exact port _
  | _ => exact claimed _ _

/-- Settles O7: RST_ASSERT changes QDE and the level of RST; `exec_held` says the rest. -/
theorem heldTakesNothing : Obligations.HeldTakesNothing :=
  ⟨fun _ => ⟨_, rfl, rfl, State.outputs_held rfl, rfl, rfl⟩, fun _ _ h hc => exec_held h hc⟩

/-! #### The setup window (R177) -/

theorem exec_windowExpiry {s : State} (h : s.pins.rstLow = false) :
    exec .windowExpiry s = .next (s.takeEvent fun e => decide (e = .windowExpiry)).windowExpires := by
  change execWindowExpiry s = _
  simp [execWindowExpiry, h]

theorem State.windowExpires_joins {s : State} (hw : s.scs.station = .window) (hv : s.store.valid = true)
    (hp : stationPresent s.tables s.scs.own = true) : s.windowExpires = s.enterJoining := by
  simp [State.windowExpires, hw, hv, hp]

theorem State.windowExpires_ownAbsent {s : State} (hw : s.scs.station = .window)
    (hv : s.store.valid = true) (hp : stationPresent s.tables s.scs.own = false) :
    s.windowExpires = (s.mapScs fun c => { c with station := .setup, windowTimer := none }).setError
      .ownAbsent 1 (s.scs.own - 1) := by
  simp [State.windowExpires, hw, hv, hp]

theorem State.windowExpires_storeInvalid {s : State} (hw : s.scs.station = .window)
    (hv : s.store.valid = false) :
    s.windowExpires = (s.mapScs fun c => { c with station := .setup, windowTimer := none }).setError
      .storeInvalid 0 0 := by
  simp [State.windowExpires, hw, hv]

theorem State.windowExpires_other {s : State} (hw : s.scs.station ≠ .window) : s.windowExpires = s := by
  simp [State.windowExpires, hw]

/-- Settles O8: HOLD is a command that WINDOW accepts; the expiry is read off its four cases. -/
theorem windowEnds : Obligations.WindowEnds := by
  intro s h
  rw [exec_windowExpiry h]
  let r := (s.takeEvent fun e => decide (e = .windowExpiry)).raised
  refine ⟨fun hport hw hb => ?_, fun hw hv hp => ⟨_, rfl, ?_⟩, fun hw hv hp => ⟨r, ?_⟩,
    fun hw hv => ⟨r, ?_⟩, fun hw => ⟨r, ?_⟩⟩
  · change Host.Outcome.next (s.command inWindow State.holdCmd) = _
    rw [State.command_taken hport hb (decide_eq_true hw)]
    rfl
  · rw [State.windowExpires_joins (s := s.takeEvent _) hw hv hp]
    exact ⟨State.enterJoining_entered _, rfl, rfl, rfl, rfl, rfl⟩
  · rw [State.windowExpires_ownAbsent (s := s.takeEvent _) hw hv hp]
    rfl
  · rw [State.windowExpires_storeInvalid (s := s.takeEvent _) hw hv]
    rfl
  · rw [State.windowExpires_other (s := s.takeEvent _) hw]
    rfl

/-! #### RESTART (R185) -/

/-- R185: what RESTART does to every block; of what has been raised nothing is said. -/
theorem State.restart_eq (s : State) :
    s.restart = { s with
      sfe := s.sfe.restarted s.pins
      gdu := { mode := .notReady, nextSeq := s.gdu.nextSeq }
      tracks := emptySlots
      zev := zevSet s.tables s.scs.own
      nq := Nq.empty
      qlc := { s.qlc with
        idleIn := s.qlc.idleAfterDriving, holdoff := none, qde := false, inFlight := none, frame := []
        ownRead := none }
      prt := { s.prt with roster := clearedRoster s.scs.own, offsets := [] }
      scs := { s.scs with station := .joining, windowTimer := none, joining := 0 }
      raised := s.restart.raised } := by
  have honly := s.stopHoldoff_only
  have hqlc := s.stopHoldoff_qlc
  unfold State.restart State.enterJoining State.stopDriving State.mapQlc
  simp only [hqlc, honly.pins, honly.tables, honly.store, honly.prt, honly.scs, honly.pending]
  rfl

/-- Settles O20: RESTART stops holdoff and driving, restarts SFE, and enters JOINING. -/
theorem restartRejoins : Obligations.RestartRejoins := by
  intro s hport hb hs
  have hexec : exec .restart s = .next (s.restart.setResult .done) := by
    change Host.Outcome.next (s.command inService State.restartCmd) = _
    rw [State.command_taken hport hb (decide_eq_true hs)]
    rfl
  rw [hexec, State.restart_eq]
  exact ⟨_, rfl, ⟨rfl, rfl, .of_fields rfl rfl rfl rfl rfl, rfl, rfl, rfl, rfl, rfl, rfl, rfl⟩, rfl, rfl, rfl,
    rfl, rfl, rfl, rfl, rfl, rfl, rfl, rfl, rfl, rfl, rfl, rfl, rfl, rfl, rfl, rfl, rfl, rfl, rfl, rfl, rfl,
    rfl, rfl, Sfe.restarted_inService _ _, rfl, rfl, rfl, rfl, rfl, rfl, rfl, rfl, rfl, rfl⟩

end Sys2Proof.Machine

/-! ### The setup port: loading the tables, START and the store (R178–R183) -/

namespace Sys2Proof.Machine

/-! #### The fault register after a fault event (R187, R189) -/

/-- R187, R189: a fault event sets its flag and marks the epoch not quiet; the health arm stays set only where
the flag was set before. -/
theorem State.faultEvent_scs (s : State) (f : FaultFlag) :
    (s.faultEvent f).scs = { s.scs with
      faults := s.scs.faults.set f, quietEpoch := false
      healthArm := s.scs.healthArm && s.scs.faults.get f } := by
  unfold State.faultEvent
  simp only
  split
  · next hwas => simp [hwas]
  · next hwas =>
    rw [Bool.not_eq_true] at hwas
    generalize hs1 : s.mapScs (fun c => { c with faults := c.faults.set f, quietEpoch := false }) = s1
    have h2 : (if f = .duplicateStation then s1.abandon.follow else s1).scs = s1.scs := by
      split
      · rw [(State.follow_only _).scs, (State.abandon_only _).scs]
      · rfl
    generalize (if f = FaultFlag.duplicateStation then s1.abandon.follow else s1) = s2 at h2
    rw [← hs1] at h2
    split
    · rw [(State.post_only _ _ _).scs, State.mapScs_scs, h2]
      simp [hwas]
    · next harm =>
      rw [h2] at harm ⊢
      have harm : s.scs.healthArm = false := by simpa using harm
      simp [hwas, harm]

/-! #### Commands turned away (R179) -/

/-- R179: a command that the station state does not accept. -/
theorem State.command_refused {s : State} {ok : StationState → Bool} {f : State → State}
    (h : s.portOpen = true) (hb : s.scs.busy = .clear) (ho : ok s.scs.station = false) :
    s.command ok f = s.setResult .refusedState := by
  simp [State.command, h, hb, ho]

/-- R179: a code that names no command. -/
theorem State.commandWrite_unnamed (s : State) {code : Byte} (h : namesCommand code = false) :
    s.commandWrite code = s.unknownCommand := by
  unfold State.commandWrite
  split <;> first | rfl | simp_all [namesCommand]

/-- Settles O9: the three answers, in the order in which `State.command` gives them. -/
theorem commandsTurnedAway : Obligations.CommandsTurnedAway := by
  refine fun s h => ⟨fun c accepted hc hb hs => ?_, fun c hc hb => ?_, fun code hcode => ?_⟩
  · have refused : ∀ (ok : StationState → Bool) (f : State → State), ok s.scs.station = false →
        Host.Outcome.next (s.command ok f) =
          (.next { s with scs := { s.scs with result := .refusedState } } : Answered) := fun ok f ho => by
      rw [State.command_refused h hb ho]
      rfl
    simp only [List.mem_cons, Prod.mk.injEq, List.not_mem_nil, or_false] at hc
    obtain ⟨rfl, rfl⟩ | ⟨rfl, rfl⟩ | ⟨rfl, rfl⟩ | ⟨rfl, rfl⟩ | ⟨rfl, rfl⟩ | ⟨rfl, rfl⟩ := hc
    · exact refused inWindow _ (by simpa [inWindow] using hs)
    · exact refused inSetup _ (by simpa [inSetup] using hs)
    · exact refused inSetup _ (by simpa [inSetup] using hs)
    · exact refused inSetup _ (by simpa [inSetup] using hs)
    · exact refused inService _ (by simpa [inService] using hs)
    · refine refused notProgramming _ ?_
      cases hst : s.scs.station <;> simp_all [notProgramming]
  · have busy : ∀ (ok : StationState → Bool) (f : State → State),
        Host.Outcome.next (s.command ok f) =
          (.next { s with scs := { s.scs with result := .busy } } : Answered) := fun ok f => by
      rw [State.command_busy h hb]
      rfl
    simp only [List.mem_cons, List.not_mem_nil, or_false] at hc
    obtain rfl | rfl | rfl | rfl | rfl | rfl | rfl | rfl := hc <;> exact busy _ _
  · change Host.Outcome.next (s.commandWrite code) = _
    rw [State.commandWrite_unnamed s hcode, State.unknownCommand, State.throughPort_open h]
    by_cases hb : s.scs.busy = .clear <;> simp [hb, State.mapScs]

/-! #### Loading the tables (R180, R181) -/

/-- R180, R194: the bytes of a page that its table uses. -/
theorem movedBytes_eq (table : Nat) : movedBytes table = if table = 0 then 12 else pageLen table := rfl

theorem State.tableSelect_open {s : State} (h : s.portOpen = true) (hb : s.scs.busy = .clear) (data : Byte) :
    s.tableSelect data =
      if data.toNat % 16 < tablePages (data.toNat / 16) then
        { s with scs := { s.scs with
          tableSel := data.toNat / 16, pageSel := data.toNat % 16
          buffer := loadedBuffer s.tables (data.toNat / 16) (data.toNat % 16), entryPtr := 0, byteOff := 0 } }
      else s := by
  rw [State.tableSelect, State.throughPort_open h]
  simp [State.loadingOpen, hb, State.mapScs]

/-- Settles O10: the buffer is `loadedBuffer`, whose every byte `loadedBuffer_read` gives. -/
theorem tableSelectLoads : Obligations.TableSelectLoads := by
  intro data s h hb
  have hexec : exec (.tableSelectWrite data) s = .next (s.tableSelect data) := rfl
  rw [hexec, State.tableSelect_open h hb]
  refine ⟨fun hp => ⟨_, rfl, fun k => ?_, ?_⟩, fun hp => by rw [if_neg hp]⟩
  · rw [if_pos hp, loadedBuffer_read, movedBytes_eq]
  · rw [if_pos hp]

/-- R180: the advance of pointer and offset, as O11 and O12 word it. -/
theorem Scs.advanceEntry_eq {c : Scs} (h : c.entryPtr ≤ 15) :
    c.advanceEntry = { c with entryPtr := (advancedEntry c).1, byteOff := (advancedEntry c).2 } := by
  have hptr : min (c.entryPtr + 1) 15 = if c.entryPtr = 15 then 15 else c.entryPtr + 1 := by
    split <;> omega
  unfold Scs.advanceEntry advancedEntry
  rw [hptr]
  split <;> rfl

/-- R180: a write to ENTRY DATA stores the byte where SETUP lets it. -/
theorem exec_entryDataWrite {s : State} (h : s.portOpen = true) (hb : s.scs.busy = .clear) (data : Byte) :
    exec (.entryDataWrite data) s = .next (if s.scs.station = .setup then
      { s with scs := { s.scs with buffer := s.scs.buffer.write s.scs.bufferAddr data }.advanceEntry }
      else s) := by
  change Host.Outcome.next (s.entryWrite data) = _
  rw [State.entryWrite, State.throughPort_open h]
  simp [State.loadingOpen, hb, State.mapScs]

/-- Settles O11: a byte written reads back, and no other changes, in a buffer in canonical form. -/
theorem bufferWritten : Obligations.BufferWritten := by
  intro data s h hb hwf hptr
  rw [exec_entryDataWrite h hb]
  refine ⟨fun hs => ⟨s.clearBufferCmd, ?_, fun a => rfl, rfl⟩, ?_, fun hs => ?_, fun hs => ?_⟩
  · change Host.Outcome.next (s.command inSetup State.clearBufferCmd) = _
    rw [State.command_taken h hb (decide_eq_true hs)]
  · change Host.Outcome.next (s.entryPointer data) = _
    have hmin : min data.toNat 15 = if data.toNat < 15 then data.toNat else 15 := by split <;> omega
    rw [State.entryPointer, State.throughPort_open h]
    simp [State.loadingOpen, hb, State.mapScs, hmin]
  · have hadvance := Scs.advanceEntry_eq
      (c := { s.scs with buffer := s.scs.buffer.write s.scs.bufferAddr data }) hptr
    rw [if_pos hs, hadvance]
    exact ⟨_, rfl, Memory.read_write_same hwf _ _, fun a ha => Memory.read_write_other hwf ha _, rfl⟩
  · rw [if_neg hs]

/-- Settles O12: the byte read, and the advance of `Scs.advanceEntry_eq`. -/
theorem entryDataRead : Obligations.EntryDataRead := by
  intro s h hptr
  have hexec : exec .entryDataRead s = .next (if s.writesOpen then
      s.mapScs fun c => { c.advanceEntry with sdout := some (c.buffer.read c.bufferAddr) }
      else s.mapScs fun c => { c with sdout := some 0 }) := by
    change Host.Outcome.next s.entryRead = _
    rw [State.entryRead, State.throughPort_open h]
  rw [hexec]
  refine ⟨fun hb => ?_, fun hb => ?_⟩
  · have hopen : s.writesOpen = true := by simpa [State.writesOpen] using hb
    rw [if_pos hopen, State.mapScs, Scs.advanceEntry_eq hptr]
    rfl
  · simp [State.writesOpen, hb, State.mapScs]

theorem State.commitDone_commit {s : State} (hb : s.scs.busy = .commit) :
    s.commitDone = { s with
      tables := committed s.tables s.scs, scs := { s.scs with busy := .clear, result := .done } } := if_pos hb

theorem State.commitDone_other {s : State} (hb : s.scs.busy ≠ .commit) : s.commitDone = s := if_neg hb

/-- Settles O13: COMMIT PAGE raises its completion, at which `committed_read` gives every byte. -/
theorem commitCopies : Obligations.CommitCopies := by
  intro s h hwf
  let r := s.raised.eraseP fun e => decide (e = .commitComplete)
  have hexec : exec .commitComplete s =
      .next (s.takeEvent fun e => decide (e = .commitComplete)).commitDone := by
    change Host.Outcome.next ((s.takeEvent _).unlessHeld State.commitDone) = _
    rw [State.unlessHeld_high]
    exact h
  refine ⟨fun hport hb hs => ?_, fun hb => ⟨{ s with
    tables := committed s.tables s.scs, raised := r
    scs := { s.scs with busy := .clear, result := .done } }, ?_, fun k hk => ?_, fun a ha => ?_, rfl⟩,
    fun hb => ⟨r, ?_⟩⟩
  · change Host.Outcome.next (s.command inSetup State.commitCmd) = _
    rw [State.command_taken hport hb (decide_eq_true hs)]
    rfl
  · rw [hexec, State.commitDone_commit (s := s.takeEvent _) hb]
    rfl
  · rw [← movedBytes_eq] at hk
    rw [committed_read hwf, if_pos ⟨Nat.le_add_right _ _, Nat.add_lt_add_left hk _⟩, Nat.add_sub_cancel_left]
  · rw [← movedBytes_eq] at ha
    rw [committed_read hwf, if_neg (by omega)]
  · rw [hexec, State.commitDone_other (s := s.takeEvent _) hb]
    rfl

/-- Settles O14: the two bytes of the expected checksum, written but during PROGRAMMING. -/
theorem expectedChecksumWritten : Obligations.ExpectedChecksumWritten := by
  intro data s h
  have hdata := data.isLt
  have hold := s.scs.expected.isLt
  have hhigh : exec (.expectedChecksumH data) s = .next (if s.writesOpen then
      s.mapScs fun c => { c with expected := withHigh c.expected data } else s) := by
    change Host.Outcome.next (s.expectHigh data) = _
    rw [State.expectHigh, State.throughPort_open h]
  have hlow : exec (.expectedChecksumL data) s = .next (if s.writesOpen then
      s.mapScs fun c => { c with expected := withLow c.expected data } else s) := by
    change Host.Outcome.next (s.expectLow data) = _
    rw [State.expectLow, State.throughPort_open h]
  rw [hhigh, hlow]
  refine ⟨fun hb => ?_, fun hb => ?_⟩
  · have hopen : s.writesOpen = true := by simpa [State.writesOpen] using hb
    rw [if_pos hopen, if_pos hopen]
    refine ⟨_, _, rfl, rfl, ?_, ?_, rfl, rfl⟩
    · simp only [State.mapScs_scs, withHigh, BitVec.toNat_ofNat]
      omega
    · simp only [State.mapScs_scs, withLow, BitVec.toNat_ofNat]
      omega
  · have hclosed : ¬s.writesOpen = true := by simpa [State.writesOpen] using hb
    rw [if_neg hclosed, if_neg hclosed]
    exact ⟨rfl, rfl⟩

/-! #### Writes without effect, and transactions by their bytes (R178, R195) -/

/-- A write that the busy mark bars has no effect. -/
theorem State.throughPort_barred {s : State} {f : State → State} (h : f s = s) : s.throughPort f = s :=
  State.throughPort_cases (P := fun t => t = s) rfl fun _ => h

/-- R178: during PROGRAMMING no write but one to COMMAND acts. -/
theorem State.portWrite_programming {s : State} (h : s.scs.busy = .programming) {index : Nat} (hi : index ≠ 3)
    (data : Byte) : s.portWrite index data = s := by
  unfold State.portWrite
  split
  · exact absurd rfl hi
  iterate 6 exact State.throughPort_barred (by simp [State.loadingOpen, State.writesOpen, h])
  · rfl

/-- R178: during a commit no write to TABLE SELECT, ENTRY POINTER or ENTRY DATA acts. -/
theorem State.portWrite_commit {s : State} (h : s.scs.busy = .commit) {index : Nat} (hi : index ∈ [5, 6, 7])
    (data : Byte) : s.portWrite index data = s := by
  simp only [List.mem_cons, List.not_mem_nil, or_false] at hi
  obtain rfl | rfl | rfl := hi <;> exact State.throughPort_barred (by simp [State.loadingOpen, h])

/-- R178: an index that is not written to has no effect. -/
theorem State.portWrite_ignored {index : Nat} (hi : index ∉ [3, 5, 6, 7, 8, 9, 16]) (s : State) (data : Byte) :
    s.portWrite index data = s := by
  unfold State.portWrite
  split <;> first | rfl | exact absurd (by decide) hi

/-- Where no transaction is taken no row of the port has an effect. -/
theorem exec_port_closed {s : State} (h : s.portOpen = false) (index : BitVec 7) (data : Byte) {c : Instr}
    (hc : c ∈ [Instr.hold, .clearBuffer, .commitPage, .start, .restart, .clearFaults, .channelOut, .channelIn,
      .unknownCommand data, .tableSelectWrite data, .entryPointerWrite data, .entryDataWrite data,
      .entryDataRead, .expectedChecksumH data, .expectedChecksumL data, .viewSelect data, .viewData,
      .registerWriteIgnored index data]) : exec c s = .next s := by
  have command : ∀ ok f, Host.Outcome.next (s.command ok f) = (.next s : Answered) := fun ok f =>
    congrArg _ (State.command_closed h ok f)
  have row : ∀ f, Host.Outcome.next (s.throughPort f) = (.next s : Answered) := fun f =>
    congrArg _ (State.throughPort_closed h f)
  simp only [List.mem_cons, List.not_mem_nil, or_false] at hc
  obtain rfl | rfl | rfl | rfl | rfl | rfl | rfl | rfl | rfl | rfl | rfl | rfl | rfl | rfl | rfl | rfl | rfl |
    rfl := hc
  iterate 8 exact command _ _
  · exact congrArg _ (State.commandWrite_closed h data)
  iterate 8 exact row _
  · exact congrArg _ (State.portWrite_closed h _ data)

/-- R195: a code written to COMMAND acts as the command that it spells. -/
theorem exec_decodeCommand (code : Byte) (s : State) :
    exec (decodeCommand code) s = .next (s.commandWrite code) := by
  unfold decodeCommand
  split
  iterate 8 next h => simp only [State.commandWrite, h]; rfl
  · rfl

/-- R195: a write acts as the row that it spells. -/
theorem exec_decodeWrite (index : BitVec 7) (data : Byte) (s : State) :
    exec (decodeWrite index data) s = .next (s.portWrite index.toNat data) := by
  unfold decodeWrite
  split
  · next h => rw [exec_decodeCommand, h]; rfl
  iterate 6 next h => rw [h]; rfl
  · rfl

/-- R195: a read acts as the row that it spells. -/
theorem exec_decodeRead {index : BitVec 7} {c : Instr} (h : decodeRead index = some c) (s : State) :
    exec c s = .next (s.readEffect index.toNat) := by
  unfold decodeRead at h
  split at h
  · next hi => cases h; rw [hi]; rfl
  · next hi => cases h; rw [hi]; rfl
  · cases h

theorem readEffect_of_none {index : BitVec 7} (h : decodeRead index = none) (s : State) :
    s.readEffect index.toNat = s := by
  have hentry : index.toNat ≠ 7 := fun hi => by
    unfold decodeRead at h
    rw [hi] at h
    exact nomatch h
  have hview : index.toNat ≠ 17 := fun hi => by
    unfold decodeRead at h
    rw [hi] at h
    exact nomatch h
  unfold State.readEffect
  split
  · next hi => exact absurd hi hentry
  · next hi => exact absurd hi hview
  · rfl

theorem Byte.msb_iff (b : Byte) : b.msb = true ↔ 128 ≤ b.toNat := by
  rw [BitVec.msb_eq_decide]
  simp

/-- Settles O15: the barred and closed writes, and the two bytes of a transaction by R195. -/
theorem writesIgnored : Obligations.WritesIgnored := by
  intro index data s
  have hexec : exec (.registerWriteIgnored index data) s = .next (s.portWrite index.toNat data) := rfl
  rw [hexec]
  refine ⟨fun hi => ?_, fun hb hi => ?_, fun hb hi => ?_, fun h c hc => exec_port_closed h index data hc, rfl,
    fun h => by simp [State.sdoutLine, h], fun first => ?_⟩
  · rw [State.portWrite_ignored hi]
  · rw [State.portWrite_programming hb hi]
  · rw [State.portWrite_commit hb hi]
  · have hnumber : (first.setWidth 7).toNat = first.toNat % 128 := by simp
    have hlt := first.isLt
    have hmsb := Byte.msb_iff first
    simp only [decodeTransaction, State.transaction, ← hnumber]
    cases hm : first.msb
    · have hsmall : first.toNat < 128 := by
        rw [hm] at hmsb
        simpa using hmsb
      refine ⟨fun c hc => ?_, nofun, fun h => by omega, fun _ => ⟨rfl, ?_⟩⟩
      · cases hc
        exact exec_decodeWrite _ _ _
      · simp [Nat.mod_eq_of_lt hsmall]
    · have hbig : 128 ≤ first.toNat := hmsb.1 hm
      refine ⟨fun c hc => exec_decodeRead hc s, fun hc => readEffect_of_none hc s, fun _ => ?_,
        fun h => by omega⟩
      have hindex : (first.setWidth 7).toNat = first.toNat - 128 := by omega
      rw [hindex]
      rfl

/-! #### START and the store (R182, R183) -/

/-- Settles O16: START is a command that SETUP accepts; its three outcomes by validation and checksum. -/
theorem startDecides : Obligations.StartDecides := by
  intro s h hb hs
  have hexec : exec .start s = .next s.startCmd := by
    change Host.Outcome.next (s.command inSetup State.startCmd) = _
    rw [State.command_taken h hb (decide_eq_true hs)]
  rw [hexec]
  unfold State.startCmd
  refine ⟨fun f hf => by rw [hf]; rfl, fun hv hc => by rw [hv]; simp only [if_neg hc]; rfl, fun hv hc => ?_⟩
  rw [hv]
  simp only [hc]
  rfl

/-- R183: where programming fails. -/
theorem State.programmingFails_eq (s : State) (table entry : Nat) :
    s.programmingFails table entry = { s with
      nq := (s.programmingFails table entry).nq, qlc := (s.programmingFails table entry).qlc
      raised := (s.programmingFails table entry).raised
      scs := { s.scs with
        prog := none, station := .setup, busy := .clear, result := .done
        setupError := .storeWrite, errTable := table, errEntry := entry
        faults := s.scs.faults.set .storeFault
        healthArm := s.scs.healthArm && s.scs.faults.storeFault, quietEpoch := false } } := by
  have honly := State.faultEvent_only ((s.mapScs fun c =>
    { c with station := .setup, busy := .clear, result := .done, prog := none }).setError
      .storeWrite table entry) .storeFault
  have hscs := State.faultEvent_scs ((s.mapScs fun c =>
    { c with station := .setup, busy := .clear, result := .done, prog := none }).setError
      .storeWrite table entry) .storeFault
  unfold OnlyFaults at honly
  unfold State.programmingFails
  rw [honly, hscs]
  rfl

theorem exec_storePageDone {s : State} (h : s.pins.rstLow = false) (readBack : List Byte) :
    exec (.storePageDone readBack) s = .next (s.storePage readBack) := by
  change Host.Outcome.next (s.unlessHeld fun s => s.storePage readBack) = _
  rw [State.unlessHeld_high h]

theorem exec_storeHeaderDone {s : State} (h : s.pins.rstLow = false) (valid : Bool) (checksum : Word16) :
    exec (.storeHeaderDone valid checksum) s = .next (s.storeHeader valid checksum) := by
  change Host.Outcome.next (s.unlessHeld fun s => s.storeHeader valid checksum) = _
  rw [State.unlessHeld_high h]

/-- R183: the stage after page `k`, of the 18 pages. -/
theorem ProgStage.after_eq {k : Nat} (hk : k < 18) :
    ProgStage.after k = if k = 17 then .header else .page (k + 1) := by
  have hlength : pageOrder.length = 18 := rfl
  unfold ProgStage.after
  split <;> split <;> first | rfl | omega

/-- Settles O18: `State.pageDone` by its three cases; in each the stored page is written. -/
theorem storePageDecides : Obligations.StorePageDecides := by
  intro readBack s p k table page h hstation hprog hstage hk hpage stored
  have hget : pageOrder.getD k (0, 0) = (table, page) := by
    rw [List.getD_eq_getElem?_getD, hpage]
    rfl
  have hdone : s.storePage readBack = s.pageDone p k readBack := by
    simp [State.storePage, Scs.inProgress, hstation, hprog, hstage]
  rw [exec_storePageDone h, hdone, State.pageDone, hget]
  refine ⟨fun hsame => ?_, fun hdiff hr => ?_, fun hdiff hr => ?_⟩
  · simp [← hsame, State.mapScs, ProgStage.after_eq hk, stored]
  · simp [hdiff, hr, State.mapScs, stored]
  · simp only [hdiff, if_false, hr, if_true]
    exact ⟨_, rfl, State.programmingFails_eq _ _ _⟩

/-- Settles O19: `State.headerDone` by its three cases. -/
theorem storeHeaderDecides : Obligations.StoreHeaderDecides := by
  intro valid checksum s p h hstation hprog hstage
  have hdone : s.storeHeader valid checksum = s.headerDone p valid checksum := by
    simp [State.storeHeader, Scs.inProgress, hstation, hprog, hstage]
  rw [exec_storeHeaderDone h, hdone, State.headerDone]
  refine ⟨_, rfl, ?_⟩
  by_cases hgood : valid = true ∧ checksum = p.value
  · rw [if_pos hgood]
    exact ⟨rfl, fun _ => ⟨State.enterJoining_entered _, rfl, rfl, rfl, rfl, rfl, rfl, rfl⟩,
      fun hbad => absurd hgood hbad⟩
  · rw [if_neg hgood]
    cases hr : p.retried
    · exact ⟨rfl, fun hg => absurd hg hgood, fun _ => ⟨rfl, rfl, fun _ => ⟨rfl, hstation⟩, nofun⟩⟩
    · rw [if_pos rfl, State.programmingFails_eq]
      exact ⟨rfl, fun hg => absurd hg hgood,
        fun _ => ⟨rfl, rfl, nofun, fun _ => ⟨rfl, rfl, rfl, rfl, rfl, rfl, rfl, rfl⟩⟩⟩

end Sys2Proof.Machine

/-! ### Notice Queue: what keeps it sound (R143–R150) -/

namespace Sys2Proof.Machine

/-! #### Lists of entries -/

/-- R144: the order of two entries is that of their classes, steps, post times and serial numbers. -/
theorem Entry.before_congr {a a' b b' : Entry} (ha : a'.cls = a.cls ∧ a'.steps = a.steps ∧
    a'.postTime = a.postTime ∧ a'.order = a.order) (hb : b'.cls = b.cls ∧ b'.steps = b.steps ∧
    b'.postTime = b.postTime ∧ b'.order = b.order) : a'.before b' = a.before b := by
  obtain ⟨h1, h2, h3, h4⟩ := ha
  obtain ⟨k1, k2, k3, k4⟩ := hb
  simp only [Entry.before, Entry.postedBefore, h1, h2, h3, h4, k1, k2, k3, k4]

/-- An entry that a post may place: in its ranges, not in flight, and with a serial number of its own. -/
structure Postable (q : Nq) (e : Entry) : Prop where
  cls : e.cls ≤ 4
  attempts : e.attempts ≤ 5
  waits : e.inFlight = false
  serial : e.order < q.nextOrder ∧ e.steps ≤ q.steps
  fresh : ∀ x ∈ q.entries, x.order ≠ e.order

/-- R143, R144, R149: the Notice Queue while the entry of key `sent` is in flight; with a `base`, its post times
lie within 2^31 ms after it and its entries stand in urgency order, post times compared too. -/
structure QueueSound (base : Option Time) (sent : Option Key) (q : Nq) : Prop where
  size : q.entries.length ≤ Config.queueSize
  keys : (q.entries.map Entry.key).Nodup
  ranges : ∀ e ∈ q.entries, e.cls ≤ 4 ∧ e.attempts ≤ 5
  urgency : UrgencyOrder q.entries
  flight : ∀ e ∈ q.entries, (e.inFlight = true ↔ sent = some e.key)
  sends : ∀ k, sent = some k → ∃ e ∈ q.entries, e.key = k
  orders : (q.entries.map Entry.order).Nodup
  serials : ∀ e ∈ q.entries, e.order < q.nextOrder ∧ e.steps ≤ q.steps
  held : ∀ h, q.held = some h → sent = some h.key ∧ Postable q h
  times : ∀ b ∈ base, ∀ e ∈ q.entries ++ q.held.toList, 0 ≤ timeDiff e.postTime b
  inOrder : ∀ b ∈ base, InUrgencyOrder q.entries

theorem mem_removeOrder {n : Nat} {x : Entry} {es : List Entry} :
    x ∈ removeOrder n es ↔ x ∈ es ∧ x.order ≠ n := by
  simp [removeOrder]

/-- An entry folded, or otherwise changed in its notice, its attempts and its flight alone. -/
structure SamePlace (a b : Entry) : Prop where
  key : b.key = a.key
  cls : b.cls = a.cls
  postTime : b.postTime = a.postTime
  steps : b.steps = a.steps
  order : b.order = a.order

theorem SamePlace.refl (a : Entry) : SamePlace a a := ⟨rfl, rfl, rfl, rfl, rfl⟩

section
variable {base : Option Time} {sent : Option Key} {q : Nq}

/-- Two entries of one serial number are one. -/
theorem QueueSound.eq_of_order (h : QueueSound base sent q) {a b : Entry} (ha : a ∈ q.entries)
    (hb : b ∈ q.entries) (ho : a.order = b.order) : a = b :=
  List.inj_on_of_nodup_map h.orders ha hb ho

/-- Two entries of one key are one. -/
theorem QueueSound.eq_of_key (h : QueueSound base sent q) {a b : Entry} (ha : a ∈ q.entries)
    (hb : b ∈ q.entries) (hk : a.key = b.key) : a = b :=
  List.inj_on_of_nodup_map h.keys ha hb hk

/-- R145: a post of a new key into a queue with room. -/
theorem QueueSound.insert (h : QueueSound base sent q) {e : Entry} (hp : Postable q e)
    (hroom : q.entries.length < Config.queueSize) (hkey : ∀ x ∈ q.entries, x.key ≠ e.key)
    (hheld : ∀ x, q.held = some x → x.order ≠ e.order) (htime : ∀ b ∈ base, 0 ≤ timeDiff e.postTime b) :
    QueueSound base sent { q with entries := insertEntry e q.entries } where
  size := by simpa using hroom
  keys := by
    have hperm := (insertEntry_perm e q.entries).map Entry.key
    exact hperm.nodup_iff.2 (List.nodup_cons.2 ⟨fun hmem => by
      obtain ⟨x, hx, hxe⟩ := List.mem_map.1 hmem
      exact hkey x hx hxe, h.keys⟩)
  ranges := by
    rintro x hx
    obtain rfl | hx := mem_insertEntry.1 hx
    · exact ⟨hp.cls, hp.attempts⟩
    · exact h.ranges x hx
  urgency := insertEntry_urgency h.urgency e
  flight := by
    rintro x hx
    obtain rfl | hx := mem_insertEntry.1 hx
    · refine iff_of_false (by simp [hp.waits]) fun hs => ?_
      obtain ⟨y, hy, hyk⟩ := h.sends _ hs
      exact hkey y hy hyk
    · exact h.flight x hx
  sends := fun k hk => by
    obtain ⟨x, hx, hxk⟩ := h.sends k hk
    exact ⟨x, mem_insertEntry.2 (.inr hx), hxk⟩
  orders := by
    have hperm := (insertEntry_perm e q.entries).map (·.order)
    exact hperm.nodup_iff.2 (List.nodup_cons.2 ⟨fun hmem => by
      obtain ⟨x, hx, hxe⟩ := List.mem_map.1 hmem
      exact hp.fresh x hx hxe, h.orders⟩)
  serials := by
    rintro x hx
    obtain rfl | hx := mem_insertEntry.1 hx
    · exact hp.serial
    · exact h.serials x hx
  held := fun x hx => by
    obtain ⟨hs, hpx⟩ := h.held x hx
    refine ⟨hs, hpx.cls, hpx.attempts, hpx.waits, hpx.serial, fun y hy => ?_⟩
    obtain rfl | hy := mem_insertEntry.1 hy
    · exact (hheld x hx).symm
    · exact hpx.fresh y hy
  times := fun b hb x hx => by
    simp only [List.mem_append, mem_insertEntry] at hx
    obtain (rfl | hx) | hx := hx
    · exact htime b hb
    · exact h.times b hb x (List.mem_append_left _ hx)
    · exact h.times b hb x (List.mem_append_right _ hx)
  inOrder := fun b hb => insertEntry_inOrder (h.inOrder b hb) hp.fresh (htime b hb)
    fun x hx => h.times b hb x (List.mem_append_left _ hx)

/-- R150, R147: entries taken out of the queue, the one in flight not among them. -/
theorem QueueSound.filter (h : QueueSound base sent q) {p : Entry → Bool}
    (hp : ∀ e ∈ q.entries, e.inFlight = true → p e = true) :
    QueueSound base sent { q with entries := q.entries.filter p } := by
  have hsub : (q.entries.filter p).Sublist q.entries := List.filter_sublist
  exact {
    size := hsub.length_le.trans h.size
    keys := h.keys.sublist (hsub.map _)
    ranges := fun e he => h.ranges e (hsub.mem he)
    urgency := h.urgency.sublist hsub
    flight := fun e he => h.flight e (hsub.mem he)
    sends := fun k hk => by
      obtain ⟨e, he, hek⟩ := h.sends k hk
      exact ⟨e, List.mem_filter.2 ⟨he, hp e he ((h.flight e he).2 (hek ▸ hk))⟩, hek⟩
    orders := h.orders.sublist (hsub.map _)
    serials := fun e he => h.serials e (hsub.mem he)
    held := fun x hx => by
      obtain ⟨hs, hpx⟩ := h.held x hx
      exact ⟨hs, hpx.cls, hpx.attempts, hpx.waits, hpx.serial, fun y hy => hpx.fresh y (hsub.mem hy)⟩
    times := fun b hb e he => h.times b hb e (by
      obtain he | he := List.mem_append.1 he
      · exact List.mem_append_left _ (hsub.mem he)
      · exact List.mem_append_right _ he)
    inOrder := fun b hb => (h.inOrder b hb).sublist hsub }

/-- A waiting entry taken out of the queue. -/
theorem QueueSound.remove (h : QueueSound base sent q) {v : Entry} (hv : v ∈ q.entries)
    (hw : v.inFlight = false) : QueueSound base sent { q with entries := removeOrder v.order q.entries } := by
  refine h.filter fun e he hf => ?_
  simp only [decide_eq_true_eq]
  intro ho
  rw [h.eq_of_order he hv ho, hw] at hf
  cases hf

/-- Entries changed in place: their notices within their keys, their attempts, and which one is in flight. -/
theorem QueueSound.map {sent' : Option Key} (h : QueueSound base sent q) {f : Entry → Entry}
    (hf : ∀ e ∈ q.entries, SamePlace e (f e) ∧ (f e).attempts ≤ 5 ∧
      ((f e).inFlight = true ↔ sent' = some e.key))
    (hsends : ∀ k, sent' = some k → ∃ e ∈ q.entries, e.key = k)
    (hheld : ∀ x, q.held = some x → sent' = some x.key) :
    QueueSound base sent' { q with entries := q.entries.map f } := by
  have hplace : ∀ e ∈ q.entries, SamePlace e (f e) := fun e he => (hf e he).1
  have hbefore : ∀ a ∈ q.entries, ∀ b ∈ q.entries, (f a).before (f b) = a.before b := fun a ha b hb =>
    Entry.before_congr ⟨(hplace a ha).cls, (hplace a ha).steps, (hplace a ha).postTime, (hplace a ha).order⟩
      ⟨(hplace b hb).cls, (hplace b hb).steps, (hplace b hb).postTime, (hplace b hb).order⟩
  exact {
    size := by simpa using h.size
    keys := by
      rw [List.map_map, List.map_congr_left (f := Entry.key ∘ f) (g := Entry.key) fun e he => (hplace e he).key]
      exact h.keys
    ranges := fun x hx => by
      obtain ⟨e, he, rfl⟩ := List.mem_map.1 hx
      exact ⟨(hplace e he).cls ▸ (h.ranges e he).1, (hf e he).2.1⟩
    urgency := List.pairwise_map.2 (h.urgency.imp_of_mem fun {a b} ha hb hab => by
      rw [(hplace a ha).cls, (hplace b hb).cls, (hplace a ha).steps, (hplace b hb).steps]
      exact hab)
    flight := fun x hx => by
      obtain ⟨e, he, rfl⟩ := List.mem_map.1 hx
      rw [(hplace e he).key]
      exact (hf e he).2.2
    sends := fun k hk => by
      obtain ⟨e, he, hek⟩ := hsends k hk
      exact ⟨f e, List.mem_map.2 ⟨e, he, rfl⟩, (hplace e he).key.trans hek⟩
    orders := by
      rw [List.map_map, List.map_congr_left (f := Entry.order ∘ f) (g := Entry.order) fun e he => (hplace e he).order]
      exact h.orders
    serials := fun x hx => by
      obtain ⟨e, he, rfl⟩ := List.mem_map.1 hx
      rw [(hplace e he).order, (hplace e he).steps]
      exact h.serials e he
    held := fun x hx => by
      obtain ⟨-, hpx⟩ := h.held x hx
      refine ⟨hheld x hx, hpx.cls, hpx.attempts, hpx.waits, hpx.serial, fun y hy => ?_⟩
      obtain ⟨e, he, rfl⟩ := List.mem_map.1 hy
      rw [(hplace e he).order]
      exact hpx.fresh e he
    times := fun b hb x hx => by
      obtain hx | hx := List.mem_append.1 hx
      · obtain ⟨e, he, rfl⟩ := List.mem_map.1 hx
        rw [(hplace e he).postTime]
        exact h.times b hb e (List.mem_append_left _ he)
      · exact h.times b hb x (List.mem_append_right _ hx)
    inOrder := fun b hb => List.pairwise_map.2 ((h.inOrder b hb).imp_of_mem fun {a c} ha hc hac => by
      rw [hbefore a ha c hc]
      exact hac) }

/-- R149: the held post. -/
theorem QueueSound.setHeld (h : QueueSound base sent q) {e : Entry} (hsent : sent = some e.key)
    (hp : Postable q e) (htime : ∀ b ∈ base, 0 ≤ timeDiff e.postTime b) :
    QueueSound base sent { q with held := some e } :=
  { h with
    held := fun x hx => by
      cases hx
      exact ⟨hsent, hp.cls, hp.attempts, hp.waits, hp.serial, hp.fresh⟩
    times := fun b hb x hx => by
      simp only [List.mem_append, Option.toList_some, List.mem_singleton] at hx
      obtain hx | rfl := hx
      · exact h.times b hb x (List.mem_append_left _ hx)
      · exact htime b hb }

/-- The held post withdrawn from the queue, with its serial number. -/
theorem QueueSound.clearHeld (h : QueueSound base sent q) : QueueSound base sent { q with held := none } :=
  { h with
    held := nofun
    times := fun b hb x hx => h.times b hb x (List.mem_append_left _ (by simpa using hx)) }

/-- R145: a serial number taken, or a step of common time counted. -/
theorem QueueSound.count (h : QueueSound base sent q) {steps order : Nat} (hs : q.steps ≤ steps)
    (ho : q.nextOrder ≤ order) : QueueSound base sent { q with steps := steps, nextOrder := order } :=
  { h with
    serials := fun e he => ⟨(h.serials e he).1.trans_le ho, (h.serials e he).2.trans hs⟩
    held := fun x hx => by
      obtain ⟨hsent, hp⟩ := h.held x hx
      exact ⟨hsent, hp.cls, hp.attempts, hp.waits, ⟨hp.serial.1.trans_le ho, hp.serial.2.trans hs⟩, hp.fresh⟩ }

end

/-! #### Folding (R146–R149) -/

/-- R146–R148: a fold keeps the class, or takes the post's. -/
theorem foldNotice_cls (e : Entry) (n : Notice) (cls : Nat) :
    (foldNotice e n cls).cls = e.cls ∨ (foldNotice e n cls).cls = cls := by
  unfold foldNotice
  split
  · split
    · exact .inl rfl
    · exact .inr rfl
    · exact .inr rfl
  · exact .inr rfl
  · exact .inl rfl
  · exact .inl rfl
  · exact .inl rfl

theorem foldNotice_cls_le {e : Entry} {cls : Nat} (he : e.cls ≤ 4) (hc : cls ≤ 4) (n : Notice) :
    (foldNotice e n cls).cls ≤ 4 := by
  obtain h | h := foldNotice_cls e n cls <;> omega

/-- A fold whose class is kept changes the entry in its place. -/
theorem foldNotice_samePlace {e : Entry} {n : Notice} (hk : n.key = e.key) {cls : Nat}
    (hc : (foldNotice e n cls).cls = e.cls) : SamePlace e (foldNotice e n cls) :=
  ⟨foldNotice_key hk cls, hc, foldNotice_postTime e n cls, foldNotice_steps e n cls, foldNotice_order e n cls⟩

theorem Postable.fold {q : Nq} {e : Entry} (h : Postable q e) {cls : Nat} (hc : cls ≤ 4) (n : Notice) :
    Postable q (foldNotice e n cls) where
  cls := foldNotice_cls_le h.cls hc n
  attempts := by simpa using h.attempts
  waits := by simpa using h.waits
  serial := by simpa using h.serial
  fresh := by simpa using h.fresh

/-! #### A post taken (R145, R150) -/

theorem State.entryOf_none {s : State} {k : Key} :
    s.entryOf k = none ↔ ∀ x ∈ s.nq.entries, x.key ≠ k := by
  simp [State.entryOf]

/-- R150: the entry that a full queue discards is the last of those that wait. -/
theorem lastWaiting_some {es : List Entry} {v : Entry} (h : lastWaiting es = some v) :
    v ∈ es ∧ v.inFlight = false := by
  refine ⟨List.mem_reverse.1 (List.mem_of_find?_eq_some h), by simpa using List.find?_some h⟩

theorem removeOrder_length_lt {v : Entry} {es : List Entry} (h : v ∈ es) :
    (removeOrder v.order es).length < es.length := by
  refine lt_of_le_of_ne (List.length_filter_le _ _) fun heq => ?_
  have := List.length_filter_eq_length_iff.1 heq v h
  simp at this

section
variable {base : Option Time} {s : State} {e : Entry}

/-- R145, R150: what the placing of a post of a new key keeps. -/
theorem QueueSound.place (h : QueueSound base s.qlc.inFlight s.nq) (hp : Postable s.nq e)
    (hkey : ∀ x ∈ s.nq.entries, x.key ≠ e.key) (hheld : ∀ x, s.nq.held = some x → x.order ≠ e.order)
    (htime : ∀ b ∈ base, 0 ≤ timeDiff e.postTime b) :
    QueueSound base s.qlc.inFlight (s.place e).nq := by
  unfold State.place
  split
  · next hroom => exact h.insert hp hroom hkey hheld htime
  · split
    · exact h
    · next v hv =>
      obtain ⟨hmem, hw⟩ := lastWaiting_some hv
      split
      · refine (h.remove hmem hw).insert (q := { s.nq with entries := _ })
          ⟨hp.cls, hp.attempts, hp.waits, hp.serial, fun x hx => hp.fresh x (mem_removeOrder.1 hx).1⟩
          ((removeOrder_length_lt hmem).trans_le h.size) (fun x hx => hkey x (mem_removeOrder.1 hx).1)
          hheld htime
      · exact h

/-- R146–R148: what the folding of a post into a waiting entry keeps. -/
theorem QueueSound.refold (h : QueueSound base s.qlc.inFlight s.nq) {x : Entry} (hx : x ∈ s.nq.entries)
    (hw : x.inFlight = false) (hk : e.key = x.key) (hc : e.cls ≤ 4) :
    QueueSound base s.qlc.inFlight (s.refold x e).nq := by
  have hrange := h.ranges x hx
  have hkey : (foldNotice x e.notice e.cls).key = x.key := foldNotice_key hk e.cls
  unfold State.refold refoldEntry
  simp only [State.setEntries_eq, State.mapNq_nq]
  split
  · exact h.remove hx hw
  · split
    · next hcls =>
      refine h.map (fun y hy => ?_) h.sends fun z hz => (h.held z hz).1
      split
      · next ho =>
        obtain rfl := h.eq_of_order hy hx ho
        exact ⟨foldNotice_samePlace hk hcls, by simpa using hrange.2, by simpa using h.flight y hy⟩
      · exact ⟨.refl y, (h.ranges y hy).2, h.flight y hy⟩
    · refine (h.remove hx hw).insert (q := { s.nq with entries := _ }) ⟨foldNotice_cls_le hrange.1 hc _, ?_, ?_,
        ?_, fun y hy => ?_⟩ ((removeOrder_length_lt hx).trans_le h.size) (fun y hy => ?_) (fun z hz => ?_)
        fun b hb => ?_
      · simpa using hrange.2
      · simpa using hw
      · simpa using h.serials x hx
      · simpa using (mem_removeOrder.1 hy).2
      · rw [hkey]
        obtain ⟨hy, ho⟩ := mem_removeOrder.1 hy
        exact fun hyx => ho (congrArg Entry.order (h.eq_of_key hy hx hyx))
      · simpa using ((h.held z hz).2.fresh x hx).symm
      · simpa using h.times b hb x (List.mem_append_left _ hx)

/-- R149: what a post for the key of the entry in flight keeps. -/
theorem QueueSound.hold (h : QueueSound base s.qlc.inFlight s.nq) (hp : Postable s.nq e)
    (hsent : s.qlc.inFlight = some e.key) (htime : ∀ b ∈ base, 0 ≤ timeDiff e.postTime b) :
    QueueSound base s.qlc.inFlight (s.hold e).nq := by
  unfold State.hold
  simp only [State.mapNq_nq]
  cases hheld : s.nq.held with
  | none => exact h.setHeld hsent hp htime
  | some x =>
    obtain ⟨hsx, hpx⟩ := h.held x hheld
    have hk : e.key = x.key := Option.some.inj (hsent.symm.trans hsx)
    refine h.setHeld ?_ (hpx.fold hp.cls _) fun b hb => ?_
    · rw [hsx, foldNotice_key hk]
    · simpa using h.times b hb x (List.mem_append_right _ (by simp [hheld]))

/-- R145: what a post taken keeps. -/
theorem QueueSound.takePost (h : QueueSound base s.qlc.inFlight s.nq) (hp : Postable s.nq e)
    (hheld : ∀ x, s.nq.held = some x → x.order ≠ e.order) (htime : ∀ b ∈ base, 0 ≤ timeDiff e.postTime b) :
    QueueSound base s.qlc.inFlight (s.takePost e).nq := by
  unfold State.takePost
  split
  · exact h
  · split
    · next hnone => exact h.place hp (State.entryOf_none.1 hnone) hheld htime
    · next x hx =>
      have hmem := State.entryOf_mem hx
      have hkey := State.entryOf_key hx
      split
      · next hf => exact h.hold hp (hkey ▸ (h.flight x hmem).1 hf) htime
      · next hf => exact h.refold hmem (by simpa using hf) hkey.symm hp.cls

theorem State.takePost_qlc (s : State) (e : Entry) : (s.takePost e).qlc = s.qlc := by
  unfold State.takePost State.place State.hold State.refold
  split
  · rfl
  · split
    · split
      · rfl
      · split
        · rfl
        · split <;> rfl
    · split <;> rfl

end

end Sys2Proof.Machine

/-! ### Notice Queue and line: what each operation keeps (R122–R132, R143–R156) -/

namespace Sys2Proof.Machine

/-! #### The line record -/

/-- R126: the sequence register never becomes 0. -/
theorem seqAdvance_ne_zero {r : Word16} (h : r ≠ 0) : seqAdvance r ≠ 0 := by
  intro hz
  have hbit : ∀ i, (seqAdvance r).getLsbD i = false := fun i => by rw [hz]; simp
  have hlow : ∀ i, i < 15 → r.getLsbD i = false := fun i hi => by
    have h1 := hbit (i + 1)
    simp only [seqAdvance, BitVec.getLsbD_or, BitVec.getLsbD_shiftLeft, Bool.or_eq_false_iff] at h1
    simpa [show i + 1 < 16 by omega] using h1.1
  have htop : r.getLsbD 15 = false := by
    have h0 := hbit 0
    simp only [seqAdvance, BitVec.getLsbD_or, BitVec.getLsbD_shiftLeft, hlow 13 (by omega),
      hlow 12 (by omega), hlow 10 (by omega)] at h0
    cases hr : r.getLsbD 15
    · rfl
    · simp [hr] at h0
  refine h (BitVec.eq_of_getLsbD_eq fun i hi => ?_)
  rw [show BitVec.getLsbD (0 : Word16) i = false by simp]
  by_cases h15 : i = 15
  · rw [h15, htop]
  · exact hlow i (by omega)

/-- R122–R127: holdoff, flight and counters of the line record at a station that takes part or not. -/
structure LineSound (active : Bool) (q : Qlc) : Prop where
  holdoff : q.holdoff.isSome = true → q.busy = false
  sending : q.inFlight.isSome = true → q.busy = true
  idle : active = false → q.holdoff = none ∧ q.inFlight = none
  counters : CountersOk q

/-- R122–R127, R143, R144, R149: queue and line together. -/
def QueueGood (base : Option Time) (s : State) : Prop :=
  QueueSound base s.qlc.inFlight s.nq ∧ LineSound s.active s.qlc

theorem queueInv_iff {s : State} : QueueInv s ↔ QueueGood none s := by
  constructor
  · rintro ⟨⟨hsize, hkeys, hranges⟩, hurgency, ⟨hflight, hsends, hheld⟩, ⟨hh, hb, hi⟩,
      ⟨horders, hserials, hheldOrders⟩, hcounters⟩
    exact ⟨⟨hsize, hkeys, hranges, hurgency, hflight, hsends, horders, hserials, fun x hx =>
      ⟨(hheld x hx).1, (hheld x hx).2.2.1, (hheld x hx).2.2.2, (hheld x hx).2.1,
        ⟨(hheldOrders x hx).1, (hheldOrders x hx).2.1⟩, (hheldOrders x hx).2.2⟩, nofun, nofun⟩,
      ⟨hh, hb, hi, hcounters⟩⟩
  · rintro ⟨hq, hl⟩
    exact ⟨⟨hq.size, hq.keys, hq.ranges⟩, hq.urgency, ⟨hq.flight, hq.sends, fun x hx =>
      ⟨(hq.held x hx).1, (hq.held x hx).2.waits, (hq.held x hx).2.cls, (hq.held x hx).2.attempts⟩⟩,
      ⟨hl.holdoff, hl.sending, hl.idle⟩, ⟨hq.orders, hq.serials, fun x hx =>
      ⟨(hq.held x hx).2.serial.1, (hq.held x hx).2.serial.2, (hq.held x hx).2.fresh⟩⟩, hl.counters⟩

/-- Queue and line are sound whatever the other blocks hold. -/
theorem QueueGood.congr {base : Option Time} {s t : State} (h : QueueGood base s) (hnq : t.nq = s.nq)
    (hqlc : t.qlc = s.qlc) (hactive : t.active = s.active) : QueueGood base t := by
  unfold QueueGood
  rw [hnq, hqlc, hactive]
  exact h

theorem State.active_congr {s t : State} (h : t.scs.station = s.scs.station) : t.active = s.active := by
  simp [State.active, h]

theorem OnlyPosts.active {s t : State} (h : OnlyPosts s t) : t.active = s.active :=
  State.active_congr (congrArg Scs.station h.scs)

theorem OnlyFaults.active {s t : State} (h : OnlyFaults s t) : t.active = s.active :=
  State.active_congr (by rw [h])

/-- What leaves queue and line alone, and the station state. -/
theorem QueueGood.other {base : Option Time} {s t : State} (h : QueueGood base s)
    (ht : t = { t with nq := s.nq, qlc := s.qlc, scs := { t.scs with station := s.scs.station } }) :
    QueueGood base t := by
  refine h.congr ?_ ?_ (State.active_congr ?_) <;> rw [ht]

/-! #### QLC's following (R124–R128) -/

theorem LineSound.holdoff_none {active : Bool} {q : Qlc} (h : LineSound active q) :
    LineSound active { q with holdoff := none } :=
  ⟨nofun, h.sending, fun ha => ⟨rfl, (h.idle ha).2⟩, h.counters⟩

/-- R124: only where the station takes part is a notice selected. -/
theorem State.active_of_selection {s : State} {e : Entry} (h : s.selection = some e) : s.active = true := by
  have he := List.find?_some h
  simp only [Bool.and_eq_true, State.eligible] at he
  obtain ⟨-, -, he⟩ := he
  split at he <;> simp_all [State.active]

theorem State.follow_qlc_frame (s : State) :
    s.follow.qlc = { s.qlc with
      holdoff := s.follow.qlc.holdoff, seqReg := s.follow.qlc.seqReg, drawn := s.follow.qlc.drawn } := by
  unfold State.follow
  split
  · simp [State.reselect]
  · simp
  · split
    · rfl
    · simp [State.beginHoldoff]
  · rfl

theorem LineSound.follow {s : State} (h : LineSound s.active s.qlc) : LineSound s.active s.follow.qlc := by
  obtain ⟨hseq, hrot, hquiet, hdrawn, hidle⟩ := h.counters
  unfold State.follow
  split
  · next hold e hh he =>
    have ha := State.active_of_selection he
    have hb : s.qlc.busy = false := h.holdoff (by simp [hh])
    simp only [State.reselect, State.expiryCheck_qlc, State.mapQlc_qlc]
    exact ⟨fun _ => hb, h.sending, fun hn => absurd (ha.symm.trans hn) nofun, h.counters⟩
  · rw [State.stopHoldoff_qlc]
    exact h.holdoff_none
  · next e hh he =>
    have ha := State.active_of_selection he
    split
    · exact h
    · next hb =>
      rw [Bool.not_eq_true] at hb
      simp only [State.beginHoldoff, State.expiryCheck_qlc, State.mapQlc_qlc]
      exact ⟨fun _ => hb, h.sending, fun hn => absurd (ha.symm.trans hn) nofun,
        seqAdvance_ne_zero hseq, hrot, hquiet, by simp only; omega, hidle⟩
  · exact h

theorem State.follow_inFlight (s : State) : s.follow.qlc.inFlight = s.qlc.inFlight := by
  rw [State.follow_qlc_frame]

theorem QueueGood.follow {base : Option Time} {s : State} (h : QueueGood base s) : QueueGood base s.follow := by
  refine ⟨?_, ?_⟩
  · rw [State.follow_nq, State.follow_inFlight]
    exact h.1
  · rw [s.follow_only.active]
    exact h.2.follow

theorem QueueGood.stopHoldoff {base : Option Time} {s : State} (h : QueueGood base s) :
    QueueGood base s.stopHoldoff := by
  refine ⟨?_, ?_⟩
  · rw [State.stopHoldoff_nq, State.stopHoldoff_qlc]
    exact h.1
  · rw [s.stopHoldoff_only.active, State.stopHoldoff_qlc]
    exact h.2.holdoff_none

/-! #### Posts and fault events -/

section
variable {base : Option Time} {s : State}

theorem QueueGood.takePost (h : QueueGood base s) {e : Entry} (hp : Postable s.nq e)
    (hheld : ∀ x, s.nq.held = some x → x.order ≠ e.order) (htime : ∀ b ∈ base, 0 ≤ timeDiff e.postTime b) :
    QueueGood base (s.takePost e) := by
  unfold QueueGood
  rw [State.takePost_qlc, (State.takePost_only s e).active]
  exact ⟨h.1.takePost hp hheld htime, h.2⟩

/-- The entry that a post makes may be placed: its serial number is new. -/
theorem QueueSound.postable {sent : Option Key} (h : QueueSound base sent s.nq) {cls : Nat} (hc : cls ≤ 4)
    (n : Notice) : Postable s.takeSerial.nq (s.postEntry cls n) where
  cls := hc
  attempts := Nat.zero_le 5
  waits := rfl
  serial := ⟨Nat.lt_succ_self _, le_rfl⟩
  fresh := fun x hx => (h.serials x hx).1.ne

/-- R145–R150: a post keeps queue and line sound. -/
theorem QueueGood.post (h : QueueGood base s) (hnow : ∀ b ∈ base, 0 ≤ timeDiff s.prt.time b) {cls : Nat}
    (hc : cls ≤ 4) (n : Notice) : QueueGood base (s.post cls n) := by
  have hserial : QueueGood base s.takeSerial := ⟨h.1.count le_rfl (Nat.le_succ _), h.2⟩
  exact (hserial.takePost (h.1.postable hc n)
    (fun x hx => (h.1.held x hx).2.serial.1.ne) hnow).follow

theorem QueueGood.postChanges (h : QueueGood base s) (hnow : ∀ b ∈ base, 0 ≤ timeDiff s.prt.time b)
    (bs as : List ZoneState) : QueueGood base (s.postChanges bs as) := by
  induction bs generalizing s as with
  | nil => cases as <;> exact h
  | cons b bs ih =>
    cases as with
    | nil => exact h
    | cons a as =>
      have hclass : zoneClass b.level a.level ≤ 4 := by
        unfold zoneClass
        split_ifs <;> omega
      simp only [State.postChanges]
      split
      · exact ih h hnow as
      · exact ih (h.post hnow hclass _) (by rwa [(State.post_only _ _ _).prt]) as

theorem QueueGood.postLevels (h : QueueGood base s) (hnow : ∀ b ∈ base, 0 ≤ timeDiff s.prt.time b)
    (zs : List ZoneState) : QueueGood base (s.postLevels zs) := by
  induction zs generalizing s with
  | nil => exact h
  | cons z zs ih =>
    have hclass : zoneClass .clear z.level ≤ 4 := by
      unfold zoneClass
      split_ifs <;> omega
    simp only [State.postLevels]
    split
    · exact ih h hnow
    · exact ih (h.post hnow hclass _) (by rwa [(State.post_only _ _ _).prt])

/-- R149: the held post released once no entry is in flight. -/
theorem QueueGood.releaseHeld (h : QueueGood base { s with nq := { s.nq with held := none } })
    (hheld : ∀ x, s.nq.held = some x → Postable s.nq x ∧ ∀ b ∈ base, 0 ≤ timeDiff x.postTime b) :
    QueueGood base s.releaseHeld := by
  unfold State.releaseHeld
  cases hx : s.nq.held with
  | none => simpa only [← hx] using h
  | some x =>
    obtain ⟨hp, htime⟩ := hheld x hx
    exact QueueGood.takePost (s := s.mapNq fun q => { q with held := none }) h
      ⟨hp.cls, hp.attempts, hp.waits, hp.serial, hp.fresh⟩ nofun htime

end

end Sys2Proof.Machine

/-! ### Notice Queue and line: leaving flight, faults and the line's own commands -/

namespace Sys2Proof.Machine

/-! #### Leaving flight (R130–R132, R149, R154–R156) -/

section
variable {base : Option Time} {s : State} {k : Key}

theorem Postable.congr {q q' : Nq} {e : Entry} (h : Postable q e) (horder : q'.nextOrder = q.nextOrder)
    (hsteps : q'.steps = q.steps) (hentries : ∀ x ∈ q'.entries, ∃ y ∈ q.entries, y.order = x.order) :
    Postable q' e where
  cls := h.cls
  attempts := h.attempts
  waits := h.waits
  serial := by rw [horder, hsteps]; exact h.serial
  fresh := fun x hx => by
    obtain ⟨y, hy, ho⟩ := hentries x hx
    exact ho ▸ h.fresh y hy

/-- R131, R132: the entry in flight returns to the queue as `g` leaves it, the held post withdrawn. -/
theorem QueueSound.returned {q : Nq} (h : QueueSound base (some k) q) {g : Entry → Entry}
    (hg : ∀ e ∈ q.entries, e.key = k → SamePlace e (g e) ∧ (g e).attempts ≤ 5 ∧ (g e).inFlight = false) :
    QueueSound base none
      { q with entries := q.entries.map fun e => if e.key = k then g e else e, held := none } := by
  refine h.clearHeld.map (fun e he => ?_) nofun nofun
  split
  · next hk => simpa using hg e he hk
  · next hk =>
    refine ⟨.refl e, (h.ranges e he).2, ?_⟩
    rw [h.flight e he]
    simp [Ne.symm hk]

/-- R154, R155: the entry in flight leaves the queue, the held post withdrawn. -/
theorem QueueSound.removed {q : Nq} (h : QueueSound base (some k) q) :
    QueueSound base none { q with entries := q.entries.filter fun e => decide (e.key ≠ k), held := none } := by
  have hback := h.returned (g := fun e => { e with inFlight := false }) fun e he _ =>
    ⟨⟨rfl, rfl, rfl, rfl, rfl⟩, (h.ranges e he).2, rfl⟩
  have hgone := hback.filter (p := fun e => decide (e.key ≠ k)) fun e he hf => by
    have := (hback.flight e he).1 hf
    cases this
  have hlist : (q.entries.map fun e => if e.key = k then { e with inFlight := false } else e).filter
      (fun e => decide (e.key ≠ k)) = q.entries.filter fun e => decide (e.key ≠ k) := by
    generalize q.entries = es
    induction es with
    | nil => rfl
    | cons e es ih => by_cases hk : e.key = k <;> simp_all [Entry.key]
  simpa only [hlist] using hgone

theorem LineSound.stopDriving {active : Bool} {q : Qlc} (h : LineSound active q) (own : Option RxFrame) :
    LineSound active { q with
      idleIn := q.idleAfterDriving, qde := false, inFlight := none, frame := [], ownRead := none
      rx := own } := by
  obtain ⟨hseq, hrot, hquiet, hdrawn, hidle⟩ := h.counters
  refine ⟨h.holdoff, nofun, fun ha => ⟨(h.idle ha).1, rfl⟩, hseq, hrot, hquiet, hdrawn, ?_⟩
  change q.idleAfterDriving ≤ 125
  unfold Qlc.idleAfterDriving idleAfterStop
  split <;> omega

/-- R149: the held post waits in the queue of a station that no longer sends the entry of key `k`. -/
theorem QueueSound.heldPostable {q q' : Nq} (h : QueueSound base (some k) q)
    (horder : q'.nextOrder = q.nextOrder) (hsteps : q'.steps = q.steps) (hheld : q'.held = q.held)
    (hentries : ∀ x ∈ q'.entries, ∃ y ∈ q.entries, y.order = x.order) :
    ∀ x, q'.held = some x → Postable q' x ∧ ∀ b ∈ base, 0 ≤ timeDiff x.postTime b := fun x hx => by
  rw [hheld] at hx
  refine ⟨(h.held x hx).2.congr horder hsteps hentries, fun b hb => ?_⟩
  exact h.times b hb x (List.mem_append_right _ (by simp [hx]))

/-- R131, R132: the entry in flight returns and the held post is released. -/
theorem QueueGood.returned (hq : QueueSound base (some k) s.nq) (hnone : s.qlc.inFlight = none)
    (hl : LineSound s.active s.qlc) {g : Entry → Entry}
    (hg : ∀ e ∈ s.nq.entries, e.key = k → SamePlace e (g e) ∧ (g e).attempts ≤ 5 ∧ (g e).inFlight = false) :
    QueueGood base (s.changeEntry k g).releaseHeld := by
  refine QueueGood.releaseHeld ⟨?_, hl⟩ (hq.heldPostable rfl rfl rfl fun x hx => ?_)
  · change QueueSound base s.qlc.inFlight _
    rw [hnone]
    exact hq.returned hg
  · obtain ⟨e, he, rfl⟩ := List.mem_map.1 hx
    refine ⟨e, he, ?_⟩
    split
    · next hk => exact ((hg e he hk).1.order).symm
    · rfl

/-- R155: the entry in flight is discarded and the held post released. -/
theorem QueueGood.discarded (hq : QueueSound base (some k) s.nq) (hnone : s.qlc.inFlight = none)
    (hl : LineSound s.active s.qlc) : QueueGood base (s.removeEntry k).releaseHeld := by
  refine QueueGood.releaseHeld ⟨?_, hl⟩
    (hq.heldPostable rfl rfl rfl fun x hx => ⟨x, (List.mem_filter.1 hx).1, rfl⟩)
  change QueueSound base s.qlc.inFlight _
  rw [hnone]
  exact hq.removed

/-- R154: so too at a success, where a redundant held ZONE is dropped. -/
theorem QueueGood.succeeded (hq : QueueSound base (some k) s.nq) (hnone : s.qlc.inFlight = none)
    (hl : LineSound s.active s.qlc) : QueueGood base (s.removeEntry k).releaseAfterSuccess := by
  have hgone : QueueSound base s.qlc.inFlight
      { s.nq with entries := s.nq.entries.filter fun e => decide (e.key ≠ k), held := none } := by
    rw [hnone]
    exact hq.removed
  unfold State.releaseAfterSuccess
  split
  · next hheld =>
    have hnq : (s.removeEntry k).nq =
        { s.nq with entries := s.nq.entries.filter fun e => decide (e.key ≠ k), held := none } :=
      congrArg (fun x => { s.nq with entries := s.nq.entries.filter fun e => decide (e.key ≠ k), held := x })
        hheld
    exact ⟨by rw [hnq]; exact hgone, hl⟩
  · split
    · exact ⟨hgone, hl⟩
    · exact QueueGood.discarded hq hnone hl

theorem QueueGood.abandon (h : QueueGood base s) : QueueGood base s.abandon := by
  unfold State.abandon
  split
  · exact h
  · next k hk =>
    refine QueueGood.returned (s := s.stopDriving) (hk ▸ h.1) rfl (h.2.stopDriving s.qlc.rx) fun e he _ => ?_
    exact ⟨⟨rfl, rfl, rfl, rfl, rfl⟩, (h.1.ranges e he).2, rfl⟩

/-- R187, R189, R132: a fault event keeps queue and line sound. -/
theorem QueueGood.faultEvent (h : QueueGood base s) (hnow : ∀ b ∈ base, 0 ≤ timeDiff s.prt.time b)
    (f : FaultFlag) : QueueGood base (s.faultEvent f) := by
  have h1 : QueueGood base (s.mapScs fun c => { c with faults := c.faults.set f, quietEpoch := false }) := h
  have hnow1 : ∀ b ∈ base, 0 ≤ timeDiff
    (s.mapScs fun c => { c with faults := c.faults.set f, quietEpoch := false }).prt.time b := hnow
  unfold State.faultEvent
  generalize s.mapScs (fun c => { c with faults := c.faults.set f, quietEpoch := false }) = s1 at h1 hnow1
  simp only
  split
  · exact h1
  · have h2 : QueueGood base (if f = .duplicateStation then s1.abandon.follow else s1) := by
      split
      · exact h1.abandon.follow
      · exact h1
    have hnow2 : ∀ b ∈ base, 0 ≤ timeDiff
        (if f = .duplicateStation then s1.abandon.follow else s1).prt.time b := by
      split
      · rwa [((State.abandon_only s1).trans (State.follow_only _)).prt]
      · exact hnow1
    generalize (if f = FaultFlag.duplicateStation then s1.abandon.follow else s1) = s2 at h2 hnow2
    split
    · exact QueueGood.post (s := s2.mapScs fun c => { c with healthArm := false }) h2 hnow2 le_rfl _
    · exact h2

theorem OnlyFaults.prt {s t : State} (h : OnlyFaults s t) : t.prt = s.prt := by rw [h]

theorem QueueGood.risingFault (h : QueueGood base s) (hnow : ∀ b ∈ base, 0 ≤ timeDiff s.prt.time b)
    (before after : Bool) (f : FaultFlag) : QueueGood base (s.risingFault before after f) := by
  unfold State.risingFault
  split
  · exact h.faultEvent hnow f
  · exact h

end

/-! #### What is being read (R123, R131, R134) -/

/-- The line keeps what it reads and whether it is BUSY, and goes on driving its frame or has stopped. -/
structure LineKept (q q' : Qlc) : Prop where
  busy : q'.busy = q.busy
  rx : q'.rx = q.rx
  sent : (q'.inFlight = q.inFlight ∧ q'.ownRead = q.ownRead) ∨ (q'.inFlight = none ∧ q'.ownRead = none)

theorem LineKept.refl (q : Qlc) : LineKept q q := ⟨rfl, rfl, .inl ⟨rfl, rfl⟩⟩

theorem LineKept.trans {q q' q'' : Qlc} (h : LineKept q q') (k : LineKept q' q'') : LineKept q q'' := by
  refine ⟨k.busy.trans h.busy, k.rx.trans h.rx, ?_⟩
  obtain ⟨ki, ko⟩ | hstopped := k.sent
  · rw [ki, ko]
    exact h.sent
  · exact .inr hstopped

theorem LineKept.of_eq {q q' : Qlc} (h : q' = q) : LineKept q q' := h ▸ .refl q

theorem ReceiveOk.kept {s t : State} (h : ReceiveOk s) (hk : LineKept s.qlc t.qlc) : ReceiveOk t := by
  obtain ⟨hrx, hown⟩ := h
  refine ⟨fun r hr => ?_, fun r hr => ?_⟩
  · obtain ⟨hb, hi⟩ := hrx r (hk.rx ▸ hr)
    refine ⟨hk.busy.trans hb, ?_⟩
    obtain ⟨he, -⟩ | ⟨he, -⟩ := hk.sent
    · exact he.trans hi
    · exact he
  · obtain ⟨hi, ho⟩ | ⟨-, ho⟩ := hk.sent
    · rw [hi]
      exact hown r (ho ▸ hr)
    · rw [ho] at hr
      cases hr

theorem FramesOpen.kept {s t : State} (h : FramesOpen s) (hk : LineKept s.qlc t.qlc) : FramesOpen t := by
  rintro r (hr | hr)
  · exact h r (.inl (hk.rx ▸ hr))
  · obtain ⟨-, ho⟩ | ⟨-, ho⟩ := hk.sent
    · exact h r (.inr (ho ▸ hr))
    · rw [ho] at hr
      cases hr

theorem State.follow_kept (s : State) : LineKept s.qlc s.follow.qlc := by
  rw [State.follow_qlc_frame]
  exact ⟨rfl, rfl, .inl ⟨rfl, rfl⟩⟩

theorem State.stopHoldoff_kept (s : State) : LineKept s.qlc s.stopHoldoff.qlc := by
  rw [State.stopHoldoff_qlc]
  exact ⟨rfl, rfl, .inl ⟨rfl, rfl⟩⟩

theorem State.post_kept (s : State) (cls : Nat) (n : Notice) : LineKept s.qlc (s.post cls n).qlc := by
  refine LineKept.trans (.of_eq ?_) (State.follow_kept _)
  rw [State.takePost_qlc]
  rfl

@[simp] theorem State.releaseHeld_qlc (s : State) : s.releaseHeld.qlc = s.qlc := by
  unfold State.releaseHeld
  split
  · rfl
  · rw [State.takePost_qlc]
    rfl

@[simp] theorem State.releaseAfterSuccess_qlc (s : State) : s.releaseAfterSuccess.qlc = s.qlc := by
  unfold State.releaseAfterSuccess
  split
  · rfl
  · split
    · rfl
    · exact s.releaseHeld_qlc

theorem State.stopDriving_kept (s : State) : LineKept s.qlc s.stopDriving.qlc := ⟨rfl, rfl, .inr ⟨rfl, rfl⟩⟩

theorem State.abandon_kept (s : State) : LineKept s.qlc s.abandon.qlc := by
  unfold State.abandon
  split
  · exact .refl _
  · rw [State.releaseHeld_qlc]
    exact s.stopDriving_kept

theorem State.faultEvent_kept (s : State) (f : FaultFlag) : LineKept s.qlc (s.faultEvent f).qlc := by
  unfold State.faultEvent
  have h1 : (s.mapScs fun c => { c with faults := c.faults.set f, quietEpoch := false }).qlc = s.qlc := rfl
  generalize s.mapScs (fun c => { c with faults := c.faults.set f, quietEpoch := false }) = s1 at h1
  simp only
  rw [← h1]
  split
  · exact .refl _
  · have h2 : LineKept s1.qlc (if f = .duplicateStation then s1.abandon.follow else s1).qlc := by
      split
      · exact s1.abandon_kept.trans (State.follow_kept _)
      · exact .refl _
    generalize (if f = FaultFlag.duplicateStation then s1.abandon.follow else s1) = s2 at h2
    split
    · exact h2.trans (State.post_kept (s2.mapScs fun c => { c with healthArm := false }) _ _)
    · exact h2

theorem State.risingFault_kept (s : State) (before after : Bool) (f : FaultFlag) :
    LineKept s.qlc (s.risingFault before after f).qlc := by
  unfold State.risingFault
  split
  · exact s.faultEvent_kept f
  · exact .refl _

theorem State.postChanges_kept (s : State) (bs as : List ZoneState) :
    LineKept s.qlc (s.postChanges bs as).qlc := by
  induction bs generalizing s as with
  | nil => cases as <;> exact .refl _
  | cons b bs ih =>
    cases as with
    | nil => exact .refl _
    | cons a as =>
      simp only [State.postChanges]
      split
      · exact ih _ _
      · exact (s.post_kept _ _).trans (ih _ _)

theorem State.postLevels_kept (s : State) (zs : List ZoneState) : LineKept s.qlc (s.postLevels zs).qlc := by
  induction zs generalizing s with
  | nil => exact .refl _
  | cons z zs ih =>
    simp only [State.postLevels]
    split
    · exact ih _
    · exact (s.post_kept _ _).trans (ih _)

end Sys2Proof.Machine

/-! ### Notice Queue and line: every step keeps them sound (O57) -/

namespace Sys2Proof.Machine

section
variable {base : Option Time} {s t : State}

/-! #### Other blocks -/

theorem QueueGood.slots (h : QueueGood base s) (ht : OnlySlots s t) : QueueGood base t :=
  h.other (by rw [ht])

theorem QueueGood.hears (h : QueueGood base s) (ht : OnlyHears s t) : QueueGood base t :=
  h.other (by rw [ht])

theorem QueueGood.counts (h : QueueGood base s) (ht : OnlyCounts s t) : QueueGood base t :=
  h.other (by rw [ht])

theorem OnlySlots.prt (h : OnlySlots s t) : t.prt = s.prt := by rw [h]
theorem OnlySlots.qlc (h : OnlySlots s t) : t.qlc = s.qlc := by rw [h]
theorem OnlyHears.qlc (h : OnlyHears s t) : t.qlc = s.qlc := by rw [h]
theorem OnlyHears.time (h : OnlyHears s t) : t.prt.time = s.prt.time := by rw [h]
theorem OnlyCounts.qlc (h : OnlyCounts s t) : t.qlc = s.qlc := by rw [h]

/-- A post to which the notice says how the other blocks have changed before it. -/
theorem QueueGood.postAfter (h : QueueGood base s) (hnow : ∀ b ∈ base, 0 ≤ timeDiff s.prt.time b)
    (ht : t = { t with nq := s.nq, qlc := s.qlc, prt := s.prt, scs := s.scs }) {cls : Nat} (hc : cls ≤ 4)
    (n : Notice) : QueueGood base (t.post cls n) := by
  have htime : t.prt = s.prt := by rw [ht]
  refine QueueGood.post (h.congr ?_ ?_ ?_) (htime ▸ hnow) hc n
  · rw [ht]
  · rw [ht]
  · exact State.active_congr (by rw [ht])

end

/-! #### The sample -/

section
variable {base : Option Time} {s : State}

theorem QueueGood.localJoin (h : QueueGood base s) (hnow : ∀ b ∈ base, 0 ≤ timeDiff s.prt.time b)
    (e : Episode) (id : TrackId) : QueueGood base (s.localJoin e id) := by
  have ha := s.admission_only (e.request s.scs.own id .join e.onset) false
  refine h.postAfter hnow ?_ (by omega) _
  rw [ha]
  rfl

theorem QueueGood.localNew (h : QueueGood base s) (hnow : ∀ b ∈ base, 0 ≤ timeDiff s.prt.time b)
    (e : Episode) : QueueGood base (s.localNew e) := by
  unfold State.localNew
  split
  · exact h
  · next v _ =>
    have ha := s.admission_only (e.request s.scs.own { origin := s.scs.own, seq := v } .new e.onset) false
    refine h.postAfter hnow ?_ (by omega) _
    rw [ha]
    rfl

theorem QueueGood.gduUpdate (h : QueueGood base s) (hnow : ∀ b ∈ base, 0 ≤ timeDiff s.prt.time b)
    (e : Episode) (u : Time) : QueueGood base (s.update e u) := by
  unfold State.update
  split
  · exact h
  · next id _ =>
    split
    · have ha := s.admission_only (({ e with w := e.w || s.sfe.latch, updates := e.updates + 1 } :
        Episode).request s.scs.own id .update u) false
      refine QueueGood.congr (s := State.post _ _ _) (h.postAfter hnow ?_ (by omega) _) rfl rfl rfl
      rw [ha]
    · exact h

theorem QueueGood.gduSample (h : QueueGood base s) (hnow : ∀ b ∈ base, 0 ≤ timeDiff s.prt.time b)
    (r : SampleRecord) : QueueGood base (s.gduSample r) := by
  have hmode : ∀ m, QueueGood base (s.setMode m) := fun _ => h
  have hlatch : QueueGood base (s.mapSfe fun f => { f with latch := false }) := h
  unfold State.gduSample
  split
  · split
    · exact hmode _
    · exact hmode _
    · split
      · unfold State.onset
        simp only
        split
        · split
          · exact hlatch.localJoin hnow _ _
          · exact hlatch.localNew hnow _
        · exact h
      · exact hmode _
    · unfold State.episodeSample
      generalize (if s.qualifies r then 0 else _ + 1) = quiet
      simp only
      split_ifs
      · exact hmode _
      · exact h.gduUpdate hnow _ _
      · exact hmode _
  · exact hmode _

theorem QueueGood.sample (h : QueueGood base s) (hnow : ∀ b ∈ base, 0 ≤ timeDiff s.prt.time b)
    (vane : BitVec 4) (lamp : Bool) : QueueGood base (s.sample vane lamp) := by
  have hs : QueueGood base (s.sampled vane lamp) := h
  have rising : ∀ u b a f, QueueGood base u ∧ u.prt = s.prt →
      QueueGood base (State.risingFault u b a f) ∧ (State.risingFault u b a f).prt = s.prt :=
    fun u b a f ⟨hu, hp⟩ => ⟨hu.risingFault (hp ▸ hnow) b a f, (u.risingFault_only b a f).prt.trans hp⟩
  obtain ⟨hf, hp⟩ := rising _ s.sfe.dustLamp (s.sampleSfe vane lamp).dustLamp .dustLamp
    (rising _ s.sfe.vaneErratic (s.sampleSfe vane lamp).vaneErratic .vaneErratic
      (rising _ s.sfe.anemoSilent (s.sampleSfe vane lamp).anemoSilent .anemoSilent ⟨hs, rfl⟩))
  exact hf.gduSample (hp ▸ hnow) _

/-! #### Evaluations and the schedule point -/

theorem QueueGood.evaluate (h : QueueGood base s) (hnow : ∀ b ∈ base, 0 ≤ timeDiff s.prt.time b) :
    QueueGood base s.evaluate := by
  have hz : ∀ f, QueueGood base (s.mapZev f) := fun _ => h
  unfold State.evaluate
  simp only
  split
  · split
    · exact QueueGood.postChanges (hz _) hnow _ _
    · exact hz _
  · exact hz _

theorem QueueGood.ackEvaluation (h : QueueGood base s) (hnow : ∀ b ∈ base, 0 ≤ timeDiff s.prt.time b) :
    QueueGood base s.ackEvaluation := by
  unfold State.ackEvaluation
  split
  · exact QueueGood.congr (QueueGood.evaluate (s := s.mapSfe fun f => { f with ackPending := false }) h hnow)
      rfl rfl rfl
  · exact h

theorem QueueGood.schedulePoint (h : QueueGood base s) (hnow : ∀ b ∈ base, 0 ≤ timeDiff s.prt.time b) :
    QueueGood base s.schedulePoint := by
  unfold State.schedulePoint
  split
  · exact h.post hnow le_rfl _
  · exact h

/-! #### Received frames -/

theorem QueueGood.reject (h : QueueGood base s) (cause : Nat) (frame : List Byte) :
    QueueGood base (s.reject cause frame) :=
  ⟨h.1, h.2.holdoff, h.2.sending, h.2.idle, h.2.counters⟩

theorem QueueGood.advanceRotation (h : QueueGood base s) : QueueGood base s.advanceRotation := by
  obtain ⟨hseq, hrot, hquiet, hdrawn, hidle⟩ := h.2.counters
  have hrot' : (s.qlc.rotation + 1) % 32 ≤ 31 := by omega
  exact ⟨h.1, h.2.holdoff, h.2.sending, h.2.idle, hseq, hrot', hquiet, hdrawn, hidle⟩

theorem QueueGood.dispatchSighting (h : QueueGood base s) (frame : List Byte) (sender : Nat)
    (p : SightingNotice) : QueueGood base (s.dispatchSighting frame sender p) := by
  unfold State.dispatchSighting
  simp only
  generalize hr : s.admission _ true = a
  have hslots : QueueGood base a.2 := h.slots (hr ▸ State.admission_only _ _ _)
  obtain ⟨answer, t⟩ := a
  cases answer with
  | admitted => exact hslots
  | duplicate => exact hslots.reject _ _
  | full => exact hslots.reject _ _

theorem QueueGood.dispatch (h : QueueGood base s) (k : FrameKind) (frame : List Byte) (arrival : Time) :
    QueueGood base (s.dispatch k frame arrival) := by
  cases k with
  | presence =>
    simp only [State.dispatch]
    split
    · exact h.reject _ _
    · exact h.hears (State.takePresence_only _ _ _ _ _)
  | sighting =>
    simp only [State.dispatch]
    split
    · exact h.reject _ _
    · split
      · exact h.reject _ _
      · exact h.dispatchSighting _ _ _
  | zone =>
    simp only [State.dispatch]
    split
    · exact h.reject _ _
    · split_ifs
      · exact h.reject _ _
      · exact h.reject _ _
      · exact h.reject _ _
      · exact h.hears (.of_reports (State.takeReport_only _ _ _ _))

theorem QueueGood.receive (h : QueueGood base s) (hnow : ∀ b ∈ base, 0 ≤ timeDiff s.prt.time b)
    (frame : List Byte) (arrival : Time) : QueueGood base (s.receive frame arrival) := by
  have hcheck : ∀ k, QueueGood base (s.advanceRotation.checkSender k frame arrival) := fun k => by
    have honly := s.advanceRotation.heard_only (byteAt frame 2)
    have hheard := h.advanceRotation.hears honly
    unfold State.checkSender
    simp only
    split_ifs
    · exact h.advanceRotation.reject _ _
    · refine (hheard.reject _ _).faultEvent ?_ _
      exact (honly.time : (s.advanceRotation.heard _).prt.time = s.prt.time) ▸ hnow
    · exact hheard.reject _ _
    · exact hheard.dispatch _ _ _
  unfold State.receive
  split
  · exact h.reject _ _
  · simp only
    split
    · exact h.advanceRotation.reject _ _
    · split
      · exact hcheck _
      · exact h.advanceRotation.reject _ _

theorem QueueGood.endFrame (h : QueueGood base s) (hnow : ∀ b ∈ base, 0 ≤ timeDiff s.prt.time b)
    (r : RxFrame) : QueueGood base (s.endFrame r) :=
  QueueGood.receive (s := s.mapQlc fun q => { q with rx := none })
    ⟨h.1, h.2.holdoff, h.2.sending, h.2.idle, h.2.counters⟩ hnow _ _

/-- R122: the wait for IDLE begins again, or the frame being read changes. -/
theorem LineSound.waiting {active : Bool} {q : Qlc} (h : LineSound active q) {idleIn : Nat}
    (hi : idleIn ≤ 125) (rx : Option RxFrame) : LineSound active { q with idleIn := idleIn, rx := rx } := by
  obtain ⟨hseq, hrot, hquiet, hdrawn, -⟩ := h.counters
  exact ⟨h.holdoff, h.sending, h.idle, hseq, hrot, hquiet, hdrawn, hi⟩

theorem QueueGood.frameReceived (h : QueueGood base s) (hnow : ∀ b ∈ base, 0 ≤ timeDiff s.prt.time b)
    (chars : List Byte) : QueueGood base (s.frameReceived chars) := by
  have hread : ∀ rx, QueueGood base ({ s with
      qlc := { s.qlc with idleIn := idleAfterStop, rx := rx }
      raised := s.raised.filter fun e => !isLineIdle e }) := fun rx =>
    ⟨h.1, h.2.waiting (by decide) rx⟩
  unfold State.frameReceived State.readChars
  split
  · simp only
    split
    · exact QueueGood.endFrame (s := s.charsRead) (hread s.qlc.rx) hnow _
    · split
      · exact h
      · exact hread _
  · exact h

theorem QueueGood.endTruncated (h : QueueGood base s) (hnow : ∀ b ∈ base, 0 ≤ timeDiff s.prt.time b) :
    QueueGood base s.endTruncated := by
  unfold State.endTruncated
  split
  · exact h.endFrame hnow _
  · exact h

theorem QueueGood.endWhole (h : QueueGood base s) (hnow : ∀ b ∈ base, 0 ≤ timeDiff s.prt.time b) :
    QueueGood base s.endWhole := by
  unfold State.endWhole
  split
  · split
    · exact h.endFrame hnow _
    · exact h
  · exact h

/-! #### What a reception keeps of the line -/

theorem State.reject_kept (s : State) (cause : Nat) (frame : List Byte) :
    LineKept s.qlc (s.reject cause frame).qlc := ⟨rfl, rfl, .inl ⟨rfl, rfl⟩⟩

theorem State.dispatchSighting_kept (s : State) (frame : List Byte) (sender : Nat) (p : SightingNotice) :
    LineKept s.qlc (s.dispatchSighting frame sender p).qlc := by
  unfold State.dispatchSighting
  simp only
  generalize Request.mk _ _ _ _ _ = r
  have hs : (s.admission r true).2.qlc = s.qlc := (s.admission_only r true).qlc
  generalize s.admission r true = a at hs
  obtain ⟨answer, u⟩ := a
  change u.qlc = s.qlc at hs
  rw [← hs]
  cases answer
  · exact .refl _
  · exact u.reject_kept _ _
  · exact u.reject_kept _ _

theorem State.dispatch_kept (s : State) (k : FrameKind) (frame : List Byte) (arrival : Time) :
    LineKept s.qlc (s.dispatch k frame arrival).qlc := by
  unfold State.dispatch
  simp only
  split
  · split
    · exact s.reject_kept _ _
    · exact .of_eq (s.takePresence_only _ _ _ _).qlc
  · split
    · exact s.reject_kept _ _
    · split
      · exact s.reject_kept _ _
      · exact s.dispatchSighting_kept _ _ _
  · split
    · exact s.reject_kept _ _
    · split_ifs
      · exact s.reject_kept _ _
      · exact s.reject_kept _ _
      · exact s.reject_kept _ _
      · exact .of_eq (OnlyHears.of_reports (s.takeReport_only _ _ _)).qlc

theorem State.receive_kept (s : State) (frame : List Byte) (arrival : Time) :
    LineKept s.qlc (s.receive frame arrival).qlc := by
  have hsender : ∀ (u : State) k, LineKept u.qlc (u.checkSender k frame arrival).qlc := fun u k => by
    unfold State.checkSender
    simp only
    have hh := (u.heard_only (byteAt frame 2)).qlc
    split_ifs
    · exact u.reject_kept _ _
    · rw [← hh]
      exact (State.reject_kept _ _ _).trans (State.faultEvent_kept _ _)
    · rw [← hh]
      exact State.reject_kept _ _ _
    · rw [← hh]
      exact State.dispatch_kept _ _ _ _
  unfold State.receive
  split
  · exact s.reject_kept _ _
  · have hr : LineKept s.qlc s.advanceRotation.qlc := ⟨rfl, rfl, .inl ⟨rfl, rfl⟩⟩
    simp only
    refine hr.trans ?_
    split
    · exact State.reject_kept _ _ _
    · split
      · exact hsender _ _
      · exact State.reject_kept _ _ _

/-- R134: a frame that has ended is read no more; else the line is kept. -/
theorem State.endFrame_kept (s : State) (r : RxFrame) :
    LineKept { s.qlc with rx := none } (s.endFrame r).qlc :=
  (s.mapQlc fun q => { q with rx := none }).receive_kept _ _

/-- A line that drives nothing goes on driving nothing. -/
theorem LineKept.driving_none {q q' : Qlc} (h : LineKept q q') (hq : q.inFlight = none) :
    q'.inFlight = none := by
  obtain ⟨hi, -⟩ | ⟨hi, -⟩ := h.sent
  · exact hi.trans hq
  · exact hi

/-- The line after a frame that was being read has ended, if one was. -/
theorem State.endTruncated_kept (s : State) : LineKept { s.qlc with rx := none } s.endTruncated.qlc := by
  unfold State.endTruncated
  split
  · exact s.endFrame_kept _
  · next h => exact .of_eq (by rw [← h])

/-! #### The line's own commands -/

theorem QueueGood.lineBusy (h : QueueGood base s) : QueueGood base s.lineBusy := by
  unfold State.lineBusy
  split
  · exact ⟨h.1, h.2.waiting (by decide) _⟩
  · next hb =>
    have hstop := h.stopHoldoff
    have hnone : s.stopHoldoff.qlc.holdoff = none := by rw [State.stopHoldoff_qlc]
    obtain ⟨hseq, hrot, hquiet, hdrawn, -⟩ := hstop.2.counters
    exact ⟨hstop.1, fun hh => absurd hh (by simp), fun _ => rfl, hstop.2.idle,
      hseq, hrot, hquiet, hdrawn, (by decide : idleAfterStart ≤ 125)⟩

theorem OnlyReceives.time {s t : State} (h : OnlyReceives s t) : t.prt.time = s.prt.time := by rw [h]

theorem QueueGood.lineIdle (h : QueueGood base s) (hnow : ∀ b ∈ base, 0 ≤ timeDiff s.prt.time b) :
    QueueGood base s.lineIdle := by
  unfold State.lineIdle
  split
  · next hb =>
    simp only [Bool.and_eq_true, Option.isNone_iff_eq_none] at hb
    have htime : s.stopHoldoff.prt = s.prt := s.stopHoldoff_only.prt
    have hend := h.stopHoldoff.endTruncated (htime ▸ hnow)
    have hflight : s.stopHoldoff.endTruncated.qlc.inFlight = none :=
      s.stopHoldoff.endTruncated_kept.driving_none (by rw [State.stopHoldoff_qlc]; exact hb.2)
    obtain ⟨hseq, hrot, hquiet, hdrawn, hidle⟩ := hend.2.counters
    refine QueueGood.follow ⟨hend.1, fun _ => rfl, fun hs => ?_, hend.2.idle,
      hseq, hrot, Nat.zero_le _, hdrawn, hidle⟩
    exact absurd hs (by simp [Qlc.becomeIdle, hflight])
  · exact h

theorem QueueGood.holdoffExpiry (h : QueueGood base s) (quiet : Nat) : QueueGood base (s.holdoffExpiry quiet) := by
  obtain ⟨hseq, hrot, hquiet, hdrawn, hidle⟩ := h.2.counters
  unfold State.holdoffExpiry
  split
  · exact h
  · next hold hh =>
    have hq : min (max s.qlc.quiet quiet) Config.quietMax ≤ 255 := Nat.min_le_right _ _
    have hwait : QueueGood base
        (s.mapQlc fun q => { q with quiet := min (max q.quiet quiet) Config.quietMax }) :=
      ⟨h.1, h.2.holdoff, h.2.sending, h.2.idle, hseq, hrot, hq, hdrawn, hidle⟩
    generalize hu : (s.mapQlc fun q => { q with quiet := min (max q.quiet quiet) Config.quietMax }) = u
      at hwait
    have hhu : u.qlc.holdoff = some hold := by rw [← hu]; exact hh
    simp only
    split
    · split
      · next e he =>
        have hmem := State.entryOf_mem he
        have hb : u.qlc.busy = false := hwait.2.holdoff (by simp [hhu])
        have hnone : u.qlc.inFlight = none := by
          by_contra hs
          have := hwait.2.sending (Option.isSome_iff_ne_none.2 hs)
          rw [hb] at this
          cases this
        have hactive : u.active = true := by
          by_contra ha
          have := (hwait.2.idle (by simpa using ha)).1
          rw [hhu] at this
          cases this
        unfold State.startSending
        refine ⟨?_, nofun, fun _ => rfl, fun ha => ?_, ?_⟩
        · simp only [State.mapQlc_nq, State.mapQlc_qlc, State.changeEntry, State.setEntries_eq, State.mapNq_nq,
            State.stopHoldoff_nq]
          refine hwait.1.map (fun x hx => ?_) (fun k hk => ⟨e, hmem, Option.some.inj hk⟩) fun x hx => ?_
          · split
            · next hk => exact ⟨⟨rfl, rfl, rfl, rfl, rfl⟩, (hwait.1.ranges x hx).2, by simp [hk]⟩
            · next hk =>
              refine ⟨.refl x, (hwait.1.ranges x hx).2, ?_⟩
              rw [hwait.1.flight x hx, hnone]
              simp [Ne.symm hk]
          · have := (hwait.1.held x hx).1
            rw [hnone] at this
            cases this
        · have : u.active = false := (u.stopHoldoff_only.active).symm.trans ha
          rw [hactive] at this
          cases this
        · have hc := hwait.2.counters
          simp only [State.changeEntry, State.setEntries_eq, State.mapQlc_qlc, State.mapNq_qlc,
            State.stopHoldoff_qlc]
          exact hc
      · exact hwait
    · exact hwait

theorem QueueGood.transmitSuccess (h : QueueGood base s) : QueueGood base s.transmitSuccess := by
  unfold State.transmitSuccess
  split
  · exact h
  · next k hk =>
    have hl := h.2.stopDriving s.qlc.rx
    have hq : QueueSound base (some k) s.nq := hk ▸ h.1
    simp only
    refine QueueGood.follow (QueueGood.advanceRotation (QueueGood.succeeded ?_ ?_ ?_))
    · split
      · unfold State.setAnnounced
        split <;> exact hq
      · exact hq
    · split
      · unfold State.setAnnounced
        split <;> rfl
      · rfl
    · split
      · unfold State.setAnnounced
        split <;> exact hl
      · exact hl

theorem QueueGood.collided (h : QueueGood base s) (hnow : ∀ b ∈ base, 0 ≤ timeDiff s.prt.time b) {k : Key}
    (hk : s.qlc.inFlight = some k) : QueueGood base (s.collided k) := by
  have hl : LineSound s.active s.readOn.stopDriving.qlc := h.2.stopDriving _
  have hq : QueueSound base (some k) s.readOn.stopDriving.nq := hk ▸ h.1
  unfold State.collided
  simp only
  split
  · next hnone =>
    obtain ⟨e, he, hek⟩ := h.1.sends k hk
    exact absurd hek (State.entryOf_none.1 hnone e he)
  · next e he =>
    split
    · next ha =>
      refine (QueueGood.returned (g := fun x => { x with attempts := x.attempts + 1, inFlight := false })
        hq rfl hl fun x hx hxk => ⟨⟨rfl, rfl, rfl, rfl, rfl⟩, ?_, rfl⟩).follow
      obtain rfl := h.1.eq_of_key hx (State.entryOf_mem he) (hxk.trans (State.entryOf_key he).symm)
      exact Nat.succ_le_of_lt ha
    · have hdone := QueueGood.discarded hq rfl hl
      have hprt : (s.readOn.stopDriving.removeEntry k).releaseHeld.prt = s.prt :=
        (State.releaseHeld_only _).prt
      exact (hdone.faultEvent (hprt ▸ hnow) _).follow

theorem QueueGood.collision (h : QueueGood base s) (hnow : ∀ b ∈ base, 0 ≤ timeDiff s.prt.time b) :
    QueueGood base s.collision := by
  unfold State.collision
  split
  · exact h
  · next k hk => exact (h.collided hnow hk).endWhole ((s.collided_only k).prt ▸ hnow)

/-! #### Pre-check -/

theorem Entry.rewritten_frame (e : Entry) (p : TrackId) :
    (e.rewritten p).postTime = e.postTime ∧ (e.rewritten p).steps = e.steps ∧
      (e.rewritten p).order = e.order ∧ (e.rewritten p).attempts = e.attempts ∧
      (e.rewritten p).inFlight = e.inFlight ∧ ((e.rewritten p).cls = e.cls ∨ (e.rewritten p).cls = 3) := by
  unfold Entry.rewritten
  split <;> simp

end

end Sys2Proof.Machine

/-! ### Notice Queue and line: pre-check, common time, setup port and resets (O57) -/

namespace Sys2Proof.Machine

/-- A change of the other blocks before one that keeps the line. -/
theorem LineKept.frame {q q' q'' : Qlc} (k : LineKept q' q'') (h : q' = q) : LineKept q q'' := h ▸ k

/-! #### The pre-check (R151, R152) -/

theorem mem_of_bestFit {l : List (TrackId × Nat)} {x : TrackId × Nat} (h : bestFit l = some x) : x ∈ l := by
  induction l generalizing x with
  | nil => cases h
  | cons y ys ih =>
    unfold bestFit at h
    split at h
    · cases h
      exact List.mem_cons_self
    · next z hz =>
      split at h
      · cases h
        exact List.mem_cons_of_mem _ (ih hz)
      · cases h
        exact List.mem_cons_self

/-- R151: a rewrite candidate is a waiting NEW of the track that is to be rewritten. -/
theorem State.candidateEntry_some {s : State} {tp : Track} {e : Entry} {q : TrackId} {d : Nat}
    (h : s.candidateEntry tp e = some (q, d)) :
    ∃ n, e.notice = .sighting n ∧ n.form = .new ∧ n.id = q ∧ e.inFlight = false := by
  unfold State.candidateEntry at h
  split at h
  · next n hn =>
    split at h
    · next hc =>
      split at h
      · split at h
        · obtain ⟨x, -, hx⟩ := Option.map_eq_some_iff.1 h
          exact ⟨n, hn, hc.1, congrArg Prod.fst hx, hc.2⟩
        · cases h
      · cases h
    · cases h
  · cases h
  · cases h

theorem Entry.rewritten_sighting {e : Entry} {n : SightingNotice} (h : e.notice = .sighting n) (p : TrackId) :
    e.rewritten p = { e with notice := .sighting { n with form := .join, id := p }, cls := 3 } := by
  unfold Entry.rewritten
  rw [h]

/-- R152: the entry rewritten, in the place that its new class gives it. -/
theorem QueueSound.rewritten {base : Option Time} {sent : Option Key} {q : Nq} (h : QueueSound base sent q)
    {e : Entry} (he : e ∈ q.entries) (hw : e.inFlight = false) {n : SightingNotice}
    (hn : e.notice = .sighting n) {p : TrackId} (hp : ∀ x ∈ q.entries, x.key ≠ .sighting p) :
    QueueSound base sent { q with entries := insertEntry (e.rewritten p) (removeOrder e.order q.entries) } := by
  rw [Entry.rewritten_sighting hn]
  refine (h.remove he hw).insert (q := { q with entries := _ }) ⟨?_, (h.ranges e he).2, hw, h.serials e he, ?_⟩
    ((removeOrder_length_lt he).trans_le h.size) (fun x hx => hp x (mem_removeOrder.1 hx).1)
    (fun x hx => ((h.held x hx).2.fresh e he).symm) fun b hb => h.times b hb e (List.mem_append_left _ he)
  · change 3 ≤ 4
    omega
  · exact fun x hx => (mem_removeOrder.1 hx).2

section
variable {base : Option Time} {s : State}

theorem State.rewrite_nq {t : State} {p q : TrackId} (h : s.rewrite p q = some t) :
    t.nq = s.nq ∧ t.qlc = s.qlc ∧ t.scs = s.scs := by
  obtain ⟨tp, tq, x, -, -, -, -, rfl⟩ := State.rewrite_some h
  have hf := State.fadeTrack_only ({ s with
    tracks := replaceTrack (replaceTrack s.tracks p (some ((tp.joined x).complete s.tables))) q none
    gdu := s.gdu.follow p q, raised := s.raised ++ [.evaluation] }) p
  rw [hf]
  exact ⟨rfl, rfl, rfl⟩

theorem QueueGood.preCheck (h : QueueGood base s) (p : TrackId) : QueueGood base (s.preCheck p) := by
  unfold State.preCheck
  split
  · exact h
  · next tp _ =>
    split
    · exact h
    · next hnone =>
      split
      · exact h
      · next q d hbest =>
        split
        · next u e hr he =>
          obtain ⟨hnq, hqlc, hscs⟩ := State.rewrite_nq hr
          obtain ⟨c, hc, hcand⟩ := List.mem_filterMap.1 (mem_of_bestFit hbest)
          obtain ⟨n, hn, -, rfl, hw⟩ := State.candidateEntry_some hcand
          have hkey : c.key = e.key := by
            rw [State.entryOf_key he, Entry.key, hn, Notice.key]
          obtain rfl := h.1.eq_of_key hc (State.entryOf_mem he) hkey
          have hfree := State.entryOf_none.1 (Option.not_isSome_iff_eq_none.1 hnone)
          refine QueueGood.follow ⟨?_, ?_⟩
          · simp only [State.setEntries_eq, State.mapNq_nq, State.mapNq_qlc, hnq, hqlc]
            exact h.1.rewritten hc hw hn hfree
          · change LineSound u.active u.qlc
            rw [hqlc, State.active_congr (congrArg Scs.station hscs)]
            exact h.2
        · exact h

theorem State.preCheck_kept (s : State) (p : TrackId) : LineKept s.qlc (s.preCheck p).qlc := by
  unfold State.preCheck
  split
  · exact .refl _
  · split
    · exact .refl _
    · split
      · exact .refl _
      · split
        · next hr _ =>
          rw [← (State.rewrite_nq hr).2.1]
          exact .frame (State.follow_kept _) rfl
        · exact .refl _

/-! #### Common time (R166–R170) -/

/-- R144, R167: a step of common time. -/
theorem QueueGood.stepTime (h : QueueGood base s) (c : Int) : QueueGood base (s.stepTime c) :=
  ⟨h.1.count (Nat.le_succ _) le_rfl, h.2⟩

theorem QueueGood.mapPrt (h : QueueGood base s) (f : Prt → Prt) : QueueGood base (s.mapPrt f) := h

theorem QueueGood.slewTime (h : QueueGood base s) (hnow : ∀ b ∈ base, 0 ≤ timeDiff s.prt.time b) (c : Int) :
    QueueGood base (s.slewTime c) := by
  let f : Prt → Prt := fun p => { p with
    slew := clampSlew c, slewPhase := 0, trim := adjustTrim s.prt.trim c
    trimPhase := if adjustTrim s.prt.trim c = p.trim then p.trimPhase else 0 }
  have htime : (s.mapPrt f).prt.time = s.prt.time := rfl
  have hf := h.mapPrt f
  change QueueGood base
    (if !s.prt.timeRail && (s.mapPrt f).prt.timeRail then (s.mapPrt f).faultEvent .timeRail else s.mapPrt f)
  generalize s.mapPrt f = u at htime hf ⊢
  split
  · exact hf.faultEvent (htime ▸ hnow) _
  · exact hf

theorem QueueGood.applyCorrection (h : QueueGood base s) (hnow : ∀ b ∈ base, 0 ≤ timeDiff s.prt.time b)
    (c : Int) : QueueGood base (s.applyCorrection c) := by
  have hp := h.mapPrt fun p => { p with lastCorr := some c }
  have htime : (s.mapPrt fun p => { p with lastCorr := some c }).prt.time = s.prt.time := rfl
  unfold State.applyCorrection
  simp only
  generalize (s.mapPrt fun p => { p with lastCorr := some c }) = u at hp htime ⊢
  split
  · exact hp.stepTime c
  · exact hp.slewTime (htime ▸ hnow) c

theorem QueueGood.enterOperating (h : QueueGood base s) (hactive : s.active = true)
    (hnow : ∀ b ∈ base, 0 ≤ timeDiff s.prt.time b) : QueueGood base s.enterOperating := by
  have hop : QueueGood base (s.mapScs fun c => { c with station := .operating }) :=
    h.congr rfl rfl (by rw [hactive]; rfl)
  exact QueueGood.follow (QueueGood.postLevels (s := s.mapScs fun c => { c with station := .operating }) hop hnow _)

theorem QueueGood.boundaryNotice (h : QueueGood base s) (hnow : ∀ b ∈ base, 0 ≤ timeDiff s.prt.time b) :
    QueueGood base s.boundaryNotice := by
  have hrearm : ∀ u : State, QueueGood base u → QueueGood base u.rearm := fun _ hu => hu
  unfold State.boundaryNotice
  simp only
  refine hrearm _ ?_
  split
  · next hj =>
    have hcount : QueueGood base (s.mapScs fun c => { c with joining := c.joining + 1 }) := h
    split
    · exact hcount.enterOperating (decide_eq_true (.inl hj)) hnow
    · exact hcount
  · exact h

theorem State.enterOperating_time (s : State) : s.enterOperating.prt = s.prt :=
  ((State.postLevels_only _ _).trans (State.follow_only _)).prt

theorem State.boundaryNotice_time (s : State) : s.boundaryNotice.prt = s.prt := by
  unfold State.boundaryNotice
  simp only
  change (ite _ _ _ : State).prt = s.prt
  split
  · split
    · exact State.enterOperating_time _
    · rfl
  · rfl

/-- R166: the state once the boundary's correction, if any, has been applied. -/
def State.corrected (s : State) : State :=
  match correction s.prt.offsets with
  | some c => s.applyCorrection c
  | none => s

/-- R166, R170: a boundary applies its correction, settles offsets and lock, and gives its notice. -/
theorem State.epochBoundary_eq (s : State) :
    s.epochBoundary = (s.corrected.mapPrt fun p => { p with
      offsets := [], lock := (lockAfter s.prt.lockCount (correction s.prt.offsets)).1
      lockCount := (lockAfter s.prt.lockCount (correction s.prt.offsets)).2 }).boundaryNotice := rfl

/-- R166–R168: the boundary's posts stand at the time it leaves. -/
theorem QueueGood.epochBoundary (h : QueueGood base s) (hnow : ∀ b ∈ base, 0 ≤ timeDiff s.prt.time b)
    (hnow' : ∀ b ∈ base, 0 ≤ timeDiff s.epochBoundary.prt.time b) : QueueGood base s.epochBoundary := by
  rw [State.epochBoundary_eq, State.boundaryNotice_time] at hnow'
  rw [State.epochBoundary_eq]
  have hc : QueueGood base s.corrected := by
    unfold State.corrected
    split
    · exact h.applyCorrection hnow _
    · exact h
  exact (hc.mapPrt _).boundaryNotice hnow'

theorem State.epochBoundary_kept (s : State) : LineKept s.qlc s.epochBoundary.qlc := by
  have hslew : ∀ (u : State) c, LineKept u.qlc (u.slewTime c).qlc := fun u c => by
    unfold State.slewTime
    simp only
    split
    · exact .frame (State.faultEvent_kept _ _) rfl
    · exact .refl _
  have hcorr : LineKept s.qlc s.corrected.qlc := by
    unfold State.corrected State.applyCorrection
    split
    · simp only
      split
      · exact .refl _
      · exact .frame (hslew _ _) rfl
    · exact .refl _
  have hnotice : ∀ u : State, LineKept u.qlc u.boundaryNotice.qlc := fun u => by
    unfold State.boundaryNotice
    simp only
    change LineKept u.qlc (ite _ _ _ : State).qlc
    split
    · split
      · exact .frame ((State.postLevels_kept _ _).trans (State.follow_kept _)) rfl
      · exact .refl _
    · exact .refl _
  rw [State.epochBoundary_eq]
  exact hcorr.trans (.frame (hnotice _) rfl)

theorem State.boundaryTaken_kept (s : State) : LineKept s.qlc s.boundaryTaken.qlc := by
  unfold State.boundaryTaken
  simp only
  split
  · exact s.epochBoundary_kept
  · exact s.epochBoundary_kept.trans (.of_eq (OnlyCounts.of_deadlines (State.passDeadlines_only _)).qlc)

theorem OnlyDeadlines.time {s t : State} (h : OnlyDeadlines s t) : t.prt.time = s.prt.time := by
  obtain ⟨n, h⟩ := h
  rw [h]

theorem QueueGood.boundaryTaken (h : QueueGood base s) (hnow : ∀ b ∈ base, 0 ≤ timeDiff s.prt.time b)
    (hnow' : ∀ b ∈ base, 0 ≤ timeDiff s.boundaryTaken.prt.time b) : QueueGood base s.boundaryTaken := by
  unfold State.boundaryTaken at hnow' ⊢
  simp only at hnow' ⊢
  split at hnow'
  · next heq =>
    rw [if_pos heq]
    exact h.epochBoundary hnow hnow'
  · next hne =>
    rw [if_neg hne]
    have hd := State.passDeadlines_only s.epochBoundary
    exact (h.epochBoundary hnow (hd.time ▸ hnow')).counts (.of_deadlines hd)

end

end Sys2Proof.Machine

/-! ### Notice Queue and line: every command and the millisecond (O57) -/

namespace Sys2Proof.Machine

/-! #### What the sample, an evaluation and a success keep of the line -/

theorem State.localJoin_kept (s : State) (e : Episode) (id : TrackId) :
    LineKept s.qlc (s.localJoin e id).qlc :=
  .frame (State.post_kept _ _ _) (s.admission_only (e.request s.scs.own id .join e.onset) false).qlc

theorem State.localNew_kept (s : State) (e : Episode) : LineKept s.qlc (s.localNew e).qlc := by
  unfold State.localNew
  split
  · exact .refl _
  · next v _ =>
    exact .frame (State.post_kept _ _ _)
      (s.admission_only (e.request s.scs.own { origin := s.scs.own, seq := v } .new e.onset) false).qlc

theorem State.update_kept (s : State) (e : Episode) (u : Time) : LineKept s.qlc (s.update e u).qlc := by
  unfold State.update
  split
  · exact .refl _
  · next id _ =>
    split
    · exact .frame (State.post_kept _ _ _) (s.admission_only (({ e with
        w := e.w || s.sfe.latch, updates := e.updates + 1 } : Episode).request s.scs.own id .update u) false).qlc
    · exact .refl _

theorem State.gduSample_kept (s : State) (r : SampleRecord) : LineKept s.qlc (s.gduSample r).qlc := by
  have hmode : ∀ m, LineKept s.qlc (s.setMode m).qlc := fun _ => .refl _
  unfold State.gduSample
  split
  · split
    · exact hmode _
    · exact hmode _
    · split
      · unfold State.onset
        simp only
        split
        · split
          · exact .frame (State.localJoin_kept _ _ _) rfl
          · exact .frame (State.localNew_kept _ _) rfl
        · exact .refl _
      · exact hmode _
    · unfold State.episodeSample
      generalize (if s.qualifies r then 0 else _ + 1) = quiet
      simp only
      split_ifs
      · exact hmode _
      · exact s.update_kept _ _
      · exact hmode _
  · exact hmode _

theorem State.sample_kept (s : State) (vane : BitVec 4) (lamp : Bool) :
    LineKept s.qlc (s.sample vane lamp).qlc :=
  ((((s.sampled vane lamp).risingFault_kept s.sfe.anemoSilent (s.sampleSfe vane lamp).anemoSilent
    .anemoSilent).trans (State.risingFault_kept _ s.sfe.vaneErratic (s.sampleSfe vane lamp).vaneErratic
    .vaneErratic)).trans (State.risingFault_kept _ s.sfe.dustLamp (s.sampleSfe vane lamp).dustLamp
    .dustLamp)).trans (State.gduSample_kept _ _)

theorem State.evaluate_kept (s : State) : LineKept s.qlc s.evaluate.qlc := by
  unfold State.evaluate
  simp only
  split
  · split
    · exact .frame (State.postChanges_kept _ _ _) rfl
    · exact .refl _
  · exact .refl _

theorem State.ackEvaluation_kept (s : State) : LineKept s.qlc s.ackEvaluation.qlc := by
  unfold State.ackEvaluation
  split
  · exact (s.mapSfe fun f => { f with ackPending := false }).evaluate_kept
  · exact .refl _

theorem State.schedulePoint_kept (s : State) : LineKept s.qlc s.schedulePoint.qlc := by
  unfold State.schedulePoint
  split
  · exact s.post_kept _ _
  · exact .refl _

theorem State.setAnnounced_qlc (s : State) (n : Notice) : (s.setAnnounced n).qlc = s.qlc := by
  unfold State.setAnnounced
  split <;> rfl

theorem State.transmitSuccess_kept (s : State) : LineKept s.qlc s.transmitSuccess.qlc := by
  unfold State.transmitSuccess
  split
  · exact .refl _
  · simp only
    refine s.stopDriving_kept.trans (LineKept.trans ?_ (State.follow_kept _))
    refine LineKept.frame (q' := (State.releaseAfterSuccess _).qlc) ⟨rfl, rfl, .inl ⟨rfl, rfl⟩⟩ ?_
    rw [State.releaseAfterSuccess_qlc, State.removeEntry, State.setEntries_eq, State.mapNq_qlc]
    split
    · exact State.setAnnounced_qlc _ _
    · rfl

/-! #### What keeps queue and line, whatever it does else -/

/-- From `s` to `t` queue and line stay sound, posts taken at the time of `s`, and the line goes on with what it
reads and sends, or has stopped sending. -/
structure QueueKept (s t : State) : Prop where
  good : ∀ {base : Option Time}, QueueGood base s → (∀ b ∈ base, 0 ≤ timeDiff s.prt.time b) → QueueGood base t
  line : LineKept s.qlc t.qlc

theorem QueueKept.refl (s : State) : QueueKept s s := ⟨fun h _ => h, .refl _⟩

/-- Neither queue nor line changes, nor whether the station takes part. -/
theorem QueueKept.of_same {s t : State} (hnq : t.nq = s.nq) (hqlc : t.qlc = s.qlc) (ha : t.active = s.active) :
    QueueKept s t := ⟨fun h _ => h.congr hnq hqlc ha, .of_eq hqlc⟩

/-- The other blocks changed before. -/
theorem QueueKept.frame {s u t : State} (k : QueueKept u t) (hnq : u.nq = s.nq) (hqlc : u.qlc = s.qlc)
    (ha : u.active = s.active) (htime : u.prt.time = s.prt.time) : QueueKept s t :=
  ⟨fun h hn => k.good (h.congr hnq hqlc ha) (htime ▸ hn), .frame k.line hqlc⟩

theorem QueueKept.claim {f : State → State} (hf : ∀ u, QueueKept u (f u)) (s : State) (p : Instr → Bool) :
    QueueKept s ((s.takeEvent p).unlessHeld f) :=
  State.unlessHeld_cases (P := QueueKept s) (.of_same rfl rfl rfl) fun _ =>
    (hf (s.takeEvent p)).frame rfl rfl rfl rfl

theorem QueueKept.unlessHeld {f : State → State} (hf : ∀ u, QueueKept u (f u)) (s : State) :
    QueueKept s (s.unlessHeld f) :=
  State.unlessHeld_cases (P := QueueKept s) (.refl s) fun _ => hf s

/-! #### The setup port -/

theorem QueueKept.command {s : State} {ok : StationState → Bool} {f : State → State}
    (hf : ok s.scs.station = true → QueueKept s (f s)) : QueueKept s (s.command ok f) :=
  State.command_cases (P := QueueKept s) (.refl s) (fun _ => .of_same rfl rfl rfl) fun _ _ => hf

theorem State.active_of_window {s : State} (h : s.scs.station = .window) : s.active = false := by
  simp [State.active, h]

theorem State.active_of_setup {s : State} (h : s.scs.station = .setup) : s.active = false := by
  simp [State.active, h]

theorem State.active_of_programming {s : State} (h : s.scs.station = .programming) : s.active = false := by
  simp [State.active, h]

/-- R157: the empty queue. -/
theorem QueueSound.empty (base : Option Time) : QueueSound base none Nq.empty where
  size := Nat.zero_le _
  keys := List.nodup_nil
  ranges := nofun
  urgency := List.Pairwise.nil
  flight := nofun
  sends := nofun
  orders := List.nodup_nil
  serials := nofun
  held := nofun
  times := nofun
  inOrder := fun _ _ => List.Pairwise.nil

/-- R184: the entry into JOINING of a station that sends nothing. -/
theorem QueueGood.enterJoining {base : Option Time} {s : State} (hl : LineSound s.active s.qlc)
    (hnone : s.qlc.inFlight = none) : QueueGood base s.enterJoining := by
  refine ⟨?_, hl.holdoff, hl.sending, nofun, hl.counters⟩
  rw [show s.enterJoining.qlc.inFlight = none from hnone]
  exact QueueSound.empty base

theorem QueueKept.enterJoining {s : State} (ha : s.active = false) : QueueKept s s.enterJoining :=
  ⟨fun h _ => .enterJoining h.2 (h.2.idle ha).2, .of_eq rfl⟩

theorem QueueKept.faultEvent (s : State) (f : FaultFlag) : QueueKept s (s.faultEvent f) :=
  ⟨fun h hn => h.faultEvent hn f, s.faultEvent_kept f⟩

theorem QueueKept.startCmd {s : State} (hs : s.scs.station = .setup) : QueueKept s s.startCmd := by
  have ha := State.active_of_setup hs
  unfold State.startCmd
  simp only
  split
  · exact .of_same rfl rfl rfl
  · split
    · exact .of_same rfl rfl (ha ▸ rfl)
    · exact .of_same rfl rfl rfl

theorem QueueKept.restart (s : State) : QueueKept s s.restart := by
  refine ⟨fun h _ => ?_, ?_⟩
  · have hl := h.stopHoldoff.2.stopDriving s.stopHoldoff.qlc.rx
    exact QueueGood.enterJoining (s := { s.stopHoldoff.stopDriving with
      sfe := s.sfe.restarted s.pins, gdu := { mode := .notReady, nextSeq := s.gdu.nextSeq }
      raised := s.stopHoldoff.stopDriving.raised.filter fun e => !isSampleEvent e }) hl rfl
  · exact s.stopHoldoff_kept.trans (State.stopDriving_kept _)

theorem QueueKept.onChannel (s : State) {f : State → Channel → State}
    (hf : ∀ c, QueueKept s (f s c)) : QueueKept s (s.onChannel f) := by
  unfold State.onChannel
  split
  · next c _ => exact ⟨(hf c).good, (hf c).line⟩
  · exact .of_same rfl rfl rfl
  · exact .of_same rfl rfl rfl

theorem QueueKept.channelIn (s : State) (c : Channel) : QueueKept s (s.channelIn c) := by
  rw [State.channelIn_frame]
  exact .of_same rfl rfl rfl

theorem QueueKept.commandWrite (s : State) (code : Byte) : QueueKept s (s.commandWrite code) := by
  unfold State.commandWrite
  split
  · refine .command fun hok => .of_same rfl rfl ?_
    rw [State.active_of_window (of_decide_eq_true hok)]
    rfl
  · exact .command fun _ => .of_same rfl rfl rfl
  · exact .command fun _ => .of_same rfl rfl rfl
  · exact .command fun hok => .startCmd (of_decide_eq_true hok)
  · exact .command fun _ => ⟨(QueueKept.restart s).good, (QueueKept.restart s).line⟩
  · exact .command fun _ => ⟨fun h _ => QueueGood.follow h, .frame (State.follow_kept _) rfl⟩
  · exact .command fun _ => .onChannel s fun _ => .of_same rfl rfl rfl
  · exact .command fun _ => .onChannel s (.channelIn s)
  · refine State.throughPort_cases (P := QueueKept s) (.refl s) fun _ => ?_
    split <;> exact .of_same rfl rfl rfl

theorem QueueKept.portWrite (s : State) (index : Nat) (data : Byte) : QueueKept s (s.portWrite index data) := by
  have guarded : ∀ (b : State → Bool) (f : State → State), QueueKept s (f s) →
      QueueKept s (s.throughPort fun s => if b s then f s else s) := fun b f hf =>
    State.throughPort_cases (P := QueueKept s) (.refl s) fun _ => by
      split
      · exact hf
      · exact .refl s
  unfold State.portWrite
  split
  · exact .commandWrite s data
  · exact guarded _ _ (.of_same rfl rfl rfl)
  · exact guarded _ _ (.of_same rfl rfl rfl)
  · refine guarded _ _ (.of_same rfl rfl (State.active_congr ?_))
    change (Scs.advanceEntry _).station = _
    rw [Scs.advanceEntry_frame]
  · exact guarded _ _ (.of_same rfl rfl rfl)
  · exact guarded _ _ (.of_same rfl rfl rfl)
  · exact guarded _ _ (.of_same rfl rfl rfl)
  · exact .refl s

theorem QueueKept.port {s t : State} (h : OnlyPort s t) : QueueKept s t := by
  refine .of_same ?_ ?_ (State.active_congr ?_) <;> rw [h]

theorem QueueKept.windowExpires (s : State) : QueueKept s s.windowExpires := by
  unfold State.windowExpires
  split
  · next hw =>
    have ha := State.active_of_window hw
    split
    · split
      · exact .enterJoining ha
      · exact .of_same rfl rfl (ha ▸ rfl)
    · exact .of_same rfl rfl (ha ▸ rfl)
  · exact .refl s

theorem QueueKept.commitDone (s : State) : QueueKept s s.commitDone := by
  unfold State.commitDone
  split <;> exact .of_same rfl rfl rfl

theorem State.inProgress_some {s : State} {p : Programming} (h : s.scs.inProgress = some p) :
    s.scs.station = .programming ∧ s.scs.prog = some p := by
  unfold Scs.inProgress at h
  split at h
  · exact ⟨‹_›, h⟩
  · cases h

theorem QueueKept.programmingFails {s : State} (ha : s.active = false) (table entry : Nat) :
    QueueKept s (s.programmingFails table entry) :=
  (QueueKept.faultEvent _ _).frame rfl rfl (ha ▸ rfl) rfl

theorem QueueKept.storePage (s : State) (readBack : List Byte) : QueueKept s (s.storePage readBack) := by
  unfold State.storePage
  split
  · exact .refl s
  · next p hp =>
    have ha := State.active_of_programming (State.inProgress_some hp).1
    split
    · unfold State.pageDone
      simp only
      split_ifs
      · exact .of_same rfl rfl rfl
      · refine QueueKept.frame (QueueKept.programmingFails ?_ _ _) rfl rfl rfl rfl
        exact ha
      · exact .of_same rfl rfl rfl
    · exact .refl s

theorem QueueKept.storeHeader (s : State) (valid : Bool) (checksum : Word16) :
    QueueKept s (s.storeHeader valid checksum) := by
  unfold State.storeHeader
  split
  · exact .refl s
  · next p hp =>
    have ha := State.active_of_programming (State.inProgress_some hp).1
    split
    · exact .refl s
    · unfold State.headerDone
      split_ifs
      · refine QueueKept.frame (QueueKept.enterJoining ?_) rfl rfl rfl rfl
        exact ha
      · exact .programmingFails ha _ _
      · exact .of_same rfl rfl rfl

end Sys2Proof.Machine

/-! ### Notice Queue and line: the line's own commands, the millisecond, and every step (O57) -/

namespace Sys2Proof.Machine

/-! #### What is being read -/

/-- What is being read stays as R122, R123 and R134 say from `s` to `t`. -/
structure ReadKept (s t : State) : Prop where
  receive : ReceiveOk s → ReceiveOk t
  frames : FramesOpen s → FramesOpen t

theorem ReadKept.of_line {s t : State} (h : LineKept s.qlc t.qlc) : ReadKept s t :=
  ⟨fun k => k.kept h, fun k => k.kept h⟩

theorem ReadKept.trans {s t u : State} (h : ReadKept s t) (k : ReadKept t u) : ReadKept s u :=
  ⟨fun hs => k.receive (h.receive hs), fun hs => k.frames (h.frames hs)⟩

theorem ReadKept.frame {s u t : State} (k : ReadKept u t) (h : u.qlc = s.qlc) : ReadKept s t :=
  (ReadKept.of_line (.of_eq h)).trans k

theorem ReadKept.claim {s : State} {f : State → State} (k : ReadKept s (f s)) : ReadKept s (s.unlessHeld f) :=
  State.unlessHeld_cases (P := ReadKept s) (.of_line (.refl _)) fun _ => k

theorem frameWhole_nil : frameWhole [] = false := by simp [frameWhole]

/-- Nothing is being read. -/
theorem ReadKept.silent {s t : State} (hrx : t.qlc.rx = none) (hown : t.qlc.ownRead = none) : ReadKept s t := by
  refine ⟨fun _ => ⟨?_, ?_⟩, fun _ => ?_⟩
  · rw [hrx]
    exact nofun
  · rw [hown]
    exact nofun
  · rintro r (hr | hr)
    · rw [hrx] at hr
      cases hr
    · rw [hown] at hr
      cases hr

/-- The frame being read has ended. -/
theorem ReadKept.ended (s : State) : ReadKept s (s.mapQlc fun q => { q with rx := none }) := by
  refine ⟨fun h => ⟨nofun, h.2⟩, fun h => ?_⟩
  rintro r (hr | hr)
  · cases hr
  · exact h r (.inr hr)

theorem ReadKept.endFrame (s : State) (r : RxFrame) : ReadKept s (s.endFrame r) :=
  (ReadKept.ended s).trans (.of_line (s.endFrame_kept r))

theorem ReadKept.lineBusy {s : State} (hsend : s.qlc.inFlight.isSome = true → s.qlc.busy = true) :
    ReadKept s s.lineBusy := by
  unfold State.lineBusy
  split
  · exact .of_line ⟨rfl, rfl, .inl ⟨rfl, rfl⟩⟩
  · next hb =>
    have hnone : s.qlc.inFlight = none := by
      by_contra hs
      exact hb (hsend (Option.isSome_iff_ne_none.2 hs))
    refine (ReadKept.of_line s.stopHoldoff_kept).trans ⟨fun h => ⟨fun r _ => ⟨rfl, ?_⟩, h.2⟩, fun h => ?_⟩
    · change s.stopHoldoff.qlc.inFlight = none
      rw [State.stopHoldoff_qlc]
      exact hnone
    · rintro r (hr | hr)
      · obtain rfl := Option.some.inj hr
        exact frameWhole_nil
      · exact h r (.inr hr)

theorem ReadKept.lineIdle (s : State) : ReadKept s s.lineIdle := by
  unfold State.lineIdle
  split
  · have hend := s.stopHoldoff.endTruncated_kept
    have hread : ReadKept s s.stopHoldoff.endTruncated :=
      ((ReadKept.of_line s.stopHoldoff_kept).trans (.ended _)).trans (.of_line hend)
    have hidle : ReadKept s.stopHoldoff.endTruncated
        (s.stopHoldoff.endTruncated.mapQlc Qlc.becomeIdle) := by
      refine ⟨fun h => ⟨fun r hr => ?_, h.2⟩, fun h => h⟩
      have hr : s.stopHoldoff.endTruncated.qlc.rx = some r := hr
      rw [hend.rx] at hr
      cases hr
    exact (hread.trans hidle).trans (.of_line (State.follow_kept _))
  · exact .of_line (.refl _)

/-- R122, R129: a holdoff runs out on an IDLE line, where nothing is being read. -/
theorem ReadKept.holdoffExpiry {s : State} (hhold : s.qlc.holdoff.isSome = true → s.qlc.busy = false)
    (quiet : Nat) : ReadKept s (s.holdoffExpiry quiet) := by
  unfold State.holdoffExpiry
  split
  · exact .of_line (.refl _)
  · next hold hh =>
    have hb := hhold (by simp [hh])
    have hwait : LineKept s.qlc
        (s.mapQlc fun q => { q with quiet := min (max q.quiet quiet) Config.quietMax }).qlc :=
      ⟨rfl, rfl, .inl ⟨rfl, rfl⟩⟩
    generalize (s.mapQlc fun q => { q with quiet := min (max q.quiet quiet) Config.quietMax }) = u at hwait
    have hub : u.qlc.busy = false := hwait.busy.trans hb
    simp only
    split
    · split
      · next e _ =>
        refine (ReadKept.of_line (hwait.trans u.stopHoldoff_kept)).trans
          ⟨fun h => ⟨fun r hr => ?_, fun r _ => rfl⟩, fun h => ?_⟩
        · have := (h.1 r hr).1
          rw [State.stopHoldoff_qlc] at this
          rw [show u.qlc.busy = true from this] at hub
          cases hub
        · rintro r (hr | hr)
          · exact h r (.inl hr)
          · obtain rfl := Option.some.inj hr
            exact frameWhole_nil
      · exact .of_line hwait
    · exact .of_line hwait

theorem ReadKept.frameReceived (s : State) (chars : List Byte) : ReadKept s (s.frameReceived chars) := by
  have hread : ReadKept s s.charsRead := .of_line ⟨rfl, rfl, .inl ⟨rfl, rfl⟩⟩
  unfold State.frameReceived
  split
  · next r hr =>
    unfold State.readChars
    simp only
    split
    · exact hread.trans (.endFrame _ _)
    · next hopen =>
      rw [Bool.not_eq_true] at hopen
      split
      · exact .of_line (.refl _)
      · refine ⟨fun h => ⟨fun _ _ => h.1 r hr, h.2⟩, fun h => ?_⟩
        rintro x (hx | hx)
        · obtain rfl := Option.some.inj hx
          exact hopen
        · exact h x (.inr hx)
  · exact .of_line (.refl _)

theorem ReadKept.collision {s : State} (hsend : s.qlc.inFlight.isSome = true → s.qlc.busy = true) :
    ReadKept s s.collision := by
  unfold State.collision
  split
  · exact .of_line (.refl _)
  · next k hk =>
    have hstop : ReadKept s s.readOn.stopDriving := by
      refine ⟨fun _ => ⟨fun r _ => ⟨hsend (by simp [hk]), rfl⟩, nofun⟩, fun h => ?_⟩
      rintro r (hr | hr)
      · have hr : (s.qlc.ownRead <|> s.qlc.rx) = some r := hr
        cases hown : s.qlc.ownRead with
        | none =>
          rw [hown] at hr
          exact h r (.inl hr)
        | some x =>
          rw [hown] at hr
          obtain rfl : x = r := Option.some.inj hr
          exact h x (.inr hown)
      · cases hr
    have hleave : LineKept s.readOn.stopDriving.qlc (s.collided k).qlc := by
      unfold State.collided
      simp only
      split
      · exact .refl _
      · split
        · exact .frame (State.follow_kept _) (State.releaseHeld_qlc _)
        · refine LineKept.trans ?_ (State.follow_kept _)
          exact .frame (State.faultEvent_kept _ _) (State.releaseHeld_qlc _)
    refine (hstop.trans (.of_line hleave)).trans ?_
    unfold State.endWhole
    split
    · split
      · exact .endFrame _ _
      · exact .of_line (.refl _)
    · exact .of_line (.refl _)

/-! #### One millisecond (R122) -/

/-- What the inputs, the window timer and the setup port may change in a millisecond. -/
def OnlyInputs (s t : State) : Prop :=
  t = { s with sfe := t.sfe, raised := t.raised, scs := { s.scs with
    windowTimer := t.scs.windowTimer, sdout := t.scs.sdout, sselSeen := t.scs.sselSeen } }

theorem OnlyInputs.trans {s t u : State} (h : OnlyInputs s t) (k : OnlyInputs t u) : OnlyInputs s u := by
  unfold OnlyInputs at *
  rw [k, h]

theorem State.supprMs_only (s : State) : OnlyInputs s s.supprMs := by
  unfold State.supprMs
  simp only
  split <;> rfl

theorem State.ackMs_only (s : State) : OnlyInputs s s.ackMs := by
  unfold State.ackMs
  simp only
  split <;> rfl

theorem State.windowMs_only (s : State) : OnlyInputs s s.windowMs := by
  unfold State.windowMs
  split
  · rfl
  · split <;> rfl

theorem State.sselMs_only (s : State) : OnlyInputs s s.sselMs := by
  unfold State.sselMs
  split <;> rfl

theorem State.sampleMs_only (s : State) : OnlyInputs s s.sampleMs := by
  unfold State.sampleMs
  split <;> rfl

/-- The inputs, the window timer and the setup port in a millisecond. -/
def State.inputsMs (s : State) : State := s.supprMs.ackMs.windowMs.sselMs.sampleMs

theorem State.inputsMs_only (s : State) : OnlyInputs s s.inputsMs :=
  (((s.supprMs_only.trans (State.ackMs_only _)).trans (State.windowMs_only _)).trans
    (State.sselMs_only _)).trans (State.sampleMs_only _)

theorem State.millisecond_eq (s : State) : s.millisecond = s.clockMs.unlessHeld fun s => s.quietMs.inputsMs := rfl

/-- R122: quiet time, or the wait for IDLE, in a millisecond. -/
theorem QueueGood.quietMs {base : Option Time} {s : State} (h : QueueGood base s) : QueueGood base s.quietMs := by
  obtain ⟨hseq, hrot, hquiet, hdrawn, hidle⟩ := h.2.counters
  unfold State.quietMs
  split
  · unfold State.busyMs
    split
    · split
      · exact ⟨h.1, h.2.holdoff, h.2.sending, h.2.idle, hseq, hrot, hquiet, hdrawn, (Nat.sub_le _ _).trans hidle⟩
      · exact ⟨h.1, h.2.holdoff, h.2.sending, h.2.idle, hseq, hrot, hquiet, hdrawn, Nat.zero_le _⟩
    · exact h
  · refine QueueGood.congr (s := s.mapQlc fun q => { q with
      quiet := min (q.quiet + (q.quietFrac + Config.msQuiet) / 25) Config.quietMax
      quietFrac := (q.quietFrac + Config.msQuiet) % 25 })
      ⟨h.1, h.2.holdoff, h.2.sending, h.2.idle, hseq, hrot, Nat.min_le_right _ _, hdrawn, hidle⟩ ?_ ?_ ?_
    · exact State.expiryCheck_nq _
    · exact State.expiryCheck_qlc _
    · exact (State.expiryCheck_only _).active

theorem State.quietMs_kept (s : State) : LineKept s.qlc s.quietMs.qlc := by
  unfold State.quietMs
  split
  · unfold State.busyMs
    split
    · split <;> exact ⟨rfl, rfl, .inl ⟨rfl, rfl⟩⟩
    · exact .refl _
  · rw [State.expiryCheck_qlc]
    exact ⟨rfl, rfl, .inl ⟨rfl, rfl⟩⟩

theorem OnlyInputs.qlc {s t : State} (h : OnlyInputs s t) : t.qlc = s.qlc := by rw [h]

theorem QueueGood.millisecond {base : Option Time} {s : State} (h : QueueGood base s) :
    QueueGood base s.millisecond := by
  have hclock := h.counts s.clockMs_only
  rw [State.millisecond_eq]
  refine State.unlessHeld_cases hclock fun _ => hclock.quietMs.other ?_
  rw [State.inputsMs_only]

theorem State.millisecond_kept (s : State) : LineKept s.qlc s.millisecond.qlc := by
  have hclock : LineKept s.qlc s.clockMs.qlc := .of_eq s.clockMs_only.qlc
  rw [State.millisecond_eq]
  exact State.unlessHeld_cases (P := fun t => LineKept s.qlc t.qlc) hclock fun _ =>
    (hclock.trans (State.quietMs_kept _)).trans (.of_eq (State.inputsMs_only _).qlc)

/-! #### Resets -/

theorem LineSound.fresh (active : Bool) (sn : BitVec 5) : LineSound active (Qlc.fresh (ownNumber sn)) := by
  refine ⟨nofun, nofun, fun _ => ⟨rfl, rfl⟩, fun hz => ?_, Nat.zero_le _, Nat.zero_le _, Nat.zero_le _,
    (by decide : idleAfterStop ≤ 125)⟩
  have hz : seqStart (ownNumber sn) = 0 := hz
  have := seqStart_toNat sn
  rw [hz] at this
  rw [show (0 : Word16).toNat = 0 from rfl] at this
  omega

theorem QueueGood.powerOn (base : Option Time) (pins : Pins) (c : Store) (l : List Instr) :
    QueueGood base (powerOnState pins c l) := ⟨.empty base, .fresh _ _⟩

theorem QueueGood.lineReset (base : Option Time) (s : State) (pins : Pins) : QueueGood base (s.lineReset pins) :=
  ⟨.empty base, (LineSound.fresh true pins.sn).holdoff, nofun, fun _ => ⟨rfl, rfl⟩,
    (LineSound.fresh true pins.sn).counters⟩

/-! #### Every command -/

/-- The commands that neither reset the part, nor move common time, nor are the line's own. -/
def keepsQueue : Instr → Bool
  | .powerOn _ _ _ | .lineReset _ _ _ | .slewStep | .trimStep | .epochBoundary => false
  | .lineBusy | .lineIdle | .holdoffExpiry _ | .collision | .frameReceived _ => false
  | _ => true

theorem State.after_queueKept {c : Instr} (h : keepsQueue c = true) (s : State) : QueueKept s (s.after c) := by
  have slots : ∀ {u t : State}, OnlySlots u t → QueueKept u t := fun ht => by
    refine .of_same ?_ ht.qlc (State.active_congr ?_) <;> rw [ht]
  cases c with
  | rstAssert =>
    exact ⟨fun h _ => ⟨h.1, h.2.holdoff, h.2.sending, h.2.idle, h.2.counters⟩, rfl, rfl, .inl ⟨rfl, rfl⟩⟩
  | sampleEvent vane lamp => exact .claim (fun u => ⟨fun h hn => h.sample hn vane lamp, u.sample_kept vane lamp⟩) s _
  | pulseEdge line => exact .unlessHeld (f := fun s => s.mapSfe fun f => f.pulse line) (fun _ => .of_same rfl rfl rfl) s
  | supprTransition level =>
    exact .claim (f := fun s => { s with
      pins := { s.pins with suppr := level }, sfe := s.sfe.supprChange level s.ownRec.supprHigh })
      (fun _ => .of_same rfl rfl rfl) s _
  | ackTransition level =>
    refine .claim (f := fun s => ({ s with pins := { s.pins with ack := level } } : State).ackChange level)
      (fun u => ?_) s _
    have hf := ({ u with pins := { u.pins with ack := level } } : State).ackChange_frame level
    rw [hf]
    exact .of_same rfl rfl rfl
  | windowExpiry => exact .claim .windowExpires s _
  | hold => exact .commandWrite s 1
  | clearBuffer => exact .commandWrite s 2
  | commitPage => exact .commandWrite s 3
  | commitComplete => exact .claim .commitDone s _
  | start => exact .commandWrite s 4
  | storePageDone readBack => exact .unlessHeld (fun u => .storePage u readBack) s
  | storeHeaderDone valid checksum => exact .unlessHeld (fun u => .storeHeader u valid checksum) s
  | restart => exact .commandWrite s 5
  | clearFaults => exact .commandWrite s 6
  | channelOut => exact .commandWrite s 7
  | channelIn => exact .commandWrite s 8
  | unknownCommand code => exact .commandWrite s code
  | tableSelectWrite data => exact .portWrite s 0x05 data
  | entryPointerWrite data => exact .portWrite s 0x06 data
  | entryDataWrite data => exact .portWrite s 0x07 data
  | entryDataRead => exact .port s.entryRead_only
  | expectedChecksumH data => exact .portWrite s 0x08 data
  | expectedChecksumL data => exact .portWrite s 0x09 data
  | viewSelect code => exact .portWrite s 0x10 code
  | viewData => exact .port s.viewRead_only
  | registerWriteIgnored index data => exact .portWrite s _ data
  | transactionAbandon => exact .of_same rfl rfl rfl
  | transmitSuccess => exact .unlessHeld (fun u => ⟨fun h _ => h.transmitSuccess, u.transmitSuccess_kept⟩) s
  | preCheck id => exact .claim (fun u => ⟨fun h _ => h.preCheck id, u.preCheck_kept id⟩) s _
  | fadeDeadline id => exact .claim (fun u => slots (u.fadeTrack_only id)) s _
  | closeDeadline id => exact .claim (fun u => slots (u.closeTrack_only id)) s _
  | silenceDeadline n =>
    exact .claim (fun u => ⟨fun h _ => h.counts (u.silence_counts n), .of_eq (u.silence_counts n).qlc⟩) s _
  | tick => exact .claim (fun u => ⟨fun h hn => h.evaluate hn, u.evaluate_kept⟩) s _
  | evaluation => exact .claim (fun u => ⟨fun h hn => h.evaluate hn, u.evaluate_kept⟩) s _
  | ackEvaluation => exact .claim (fun u => ⟨fun h hn => h.ackEvaluation hn, u.ackEvaluation_kept⟩) s _
  | schedulePoint => exact .claim (fun u => ⟨fun h hn => h.schedulePoint hn, u.schedulePoint_kept⟩) s _
  | _ => cases h

/-- Every command keeps the queue, its posts taken at the time before it or at the time it leaves. -/
theorem State.after_queueGood {base : Option Time} {s : State} (c : Instr) (h : QueueGood base s)
    (hnow : ∀ b ∈ base, 0 ≤ timeDiff s.prt.time b) (hnow' : ∀ b ∈ base, 0 ≤ timeDiff (s.after c).prt.time b) :
    QueueGood base (s.after c) := by
  cases hc : keepsQueue c
  · cases c with
    | powerOn sn suppr ack => exact .powerOn _ _ _ _
    | lineReset sn suppr ack => exact .lineReset _ _ _
    | lineBusy => exact State.unlessHeld_cases (P := QueueGood base) h fun _ => h.lineBusy
    | lineIdle => exact State.unlessHeld_cases (P := QueueGood base) h fun _ => QueueGood.lineIdle (s := s.takeEvent _) h hnow
    | holdoffExpiry quiet =>
      exact State.unlessHeld_cases (P := QueueGood base) h fun _ =>
        QueueGood.holdoffExpiry (s := s.takeEvent _) h quiet
    | collision => exact State.unlessHeld_cases (P := QueueGood base) h fun _ => h.collision hnow
    | frameReceived chars => exact State.unlessHeld_cases (P := QueueGood base) h fun _ => h.frameReceived hnow chars
    | slewStep => exact h.counts s.slewStep_only
    | trimStep => exact h.counts s.trimStep_only
    | epochBoundary =>
      change QueueGood base ((s.takeEvent _).unlessHeld State.boundaryTaken)
      change ∀ b ∈ base, 0 ≤ timeDiff ((s.takeEvent _).unlessHeld State.boundaryTaken).prt.time b at hnow'
      cases hr : (s.takeEvent fun e => decide (e = .epochBoundary)).pins.rstLow
      · rw [State.unlessHeld_high hr] at hnow' ⊢
        exact QueueGood.boundaryTaken h hnow hnow'
      · rw [State.unlessHeld_low hr]
        exact h
    | _ => cases hc
  · exact (State.after_queueKept hc s).good h hnow

/-- Every command keeps what is being read. -/
theorem State.after_readKept {s : State} (c : Instr) (h : LineSound s.active s.qlc) : ReadKept s (s.after c) := by
  cases hc : keepsQueue c
  · cases c with
    | powerOn sn suppr ack => exact .silent rfl rfl
    | lineReset sn suppr ack => exact .silent rfl rfl
    | lineBusy => exact .claim (.lineBusy h.sending)
    | lineIdle => exact .frame (.claim (.lineIdle (s.takeEvent isLineIdle))) rfl
    | holdoffExpiry quiet =>
      exact .frame (.claim (f := fun s => s.holdoffExpiry quiet)
        (ReadKept.holdoffExpiry (s := s.takeEvent isHoldoffExpiry) h.holdoff quiet)) rfl
    | collision => exact .claim (.collision h.sending)
    | frameReceived chars => exact .claim (f := fun s => s.frameReceived chars) (.frameReceived s chars)
    | slewStep => exact .of_line (.of_eq s.slewStep_only.qlc)
    | trimStep => exact .of_line (.of_eq s.trimStep_only.qlc)
    | epochBoundary =>
      exact .frame (.claim (.of_line (State.boundaryTaken_kept
        (s.takeEvent fun e => decide (e = .epochBoundary))))) rfl
    | _ => cases hc
  · exact .of_line (State.after_queueKept hc s).line

/-! #### Every step -/

theorem QueueGood.step {base : Option Time} {s t : State} (h : QueueGood base s) (hstep : step s = .next t)
    (hnow : ∀ b ∈ base, 0 ≤ timeDiff s.prt.time b) (hnow' : ∀ b ∈ base, 0 ≤ timeDiff t.prt.time b) :
    QueueGood base t := by
  obtain ⟨c, l, rfl⟩ | rfl := step_cases hstep
  · exact State.after_queueGood c (s := { s with pending := l }) h hnow hnow'
  · exact h.millisecond

theorem ReadKept.step {s t : State} (h : LineSound s.active s.qlc) (hstep : step s = .next t) : ReadKept s t := by
  obtain ⟨c, l, rfl⟩ | rfl := step_cases hstep
  · exact .frame (State.after_readKept c (s := { s with pending := l }) h) rfl
  · exact .of_line s.millisecond_kept

/-- The queue with its post times in order after `base`. -/
theorem QueueGood.based {s : State} (h : QueueGood none s) {base : Time} (htimes : PostedAfter base s)
    (hin : InUrgencyOrder s.nq.entries) : QueueGood (some base) s := by
  refine ⟨{ h.1 with times := fun b hb => ?_, inOrder := fun _ _ => hin }, h.2⟩
  obtain rfl := Option.mem_some_iff.1 hb
  exact htimes.2

/-- Settles O57: queue and line stay sound command by command (`State.after_queueGood`), and so does what is being
read (`State.after_readKept`); with a base for the post times the same argument keeps them in order. -/
theorem queueStays : Obligations.QueueStays := by
  intro s t h hstep
  have hgood := queueInv_iff.1 h
  have hread := ReadKept.step hgood.2 hstep
  refine ⟨queueInv_iff.2 (hgood.step hstep nofun nofun), hread.receive, hread.frames,
    fun base htimes htimes' hin => ?_⟩
  have hbased := (hgood.based htimes hin).step hstep
    (fun b hb => by
      obtain rfl := Option.mem_some_iff.1 hb
      exact htimes.1)
    fun b hb => by
      obtain rfl := Option.mem_some_iff.1 hb
      exact htimes'.1
  exact hbased.1.inOrder base rfl

end Sys2Proof.Machine

/-! ### Track Table: slots, tracks and what each operation keeps (R59–R79) -/

namespace Sys2Proof.Machine

/-! #### Slots -/

theorem mem_liveTracks {t : Track} {l : List (Option Track)} : t ∈ liveTracks l ↔ some t ∈ l := by
  simp [liveTracks]

/-- The track of an id is one that a slot holds. -/
theorem State.trackOf_some {s : State} {id : TrackId} {t : Track} (h : s.trackOf id = some t) :
    t ∈ liveTracks s.tracks ∧ t.id = id := by
  obtain ⟨o, ho, hot⟩ := List.exists_of_findSome?_eq_some h
  split at hot
  · next x =>
    split at hot
    · next hid =>
      cases hot
      exact ⟨mem_liveTracks.2 ho, hid⟩
    · cases hot
  · cases hot

theorem State.trackOf_none {s : State} {id : TrackId} :
    s.trackOf id = none ↔ ∀ t ∈ liveTracks s.tracks, t.id ≠ id := by
  unfold State.trackOf
  rw [List.findSome?_eq_none_iff]
  constructor
  · intro h t ht hid
    have := h _ (mem_liveTracks.1 ht)
    simp [hid] at this
  · intro h o ho
    split
    · next x =>
      rw [if_neg (h x (mem_liveTracks.2 ho))]
    · rfl

/-- R59–R62, R76: the slots of a sound table. -/
def SlotsOk (l : List (Option Track)) : Prop :=
  l.length = Config.trackSlots ∧ ((liveTracks l).map (·.id)).Nodup ∧ ∀ t ∈ liveTracks l, TrackOk t

theorem SlotsOk.eq_of_id {l : List (Option Track)} (h : ((liveTracks l).map (·.id)).Nodup) {a b : Track}
    (ha : a ∈ liveTracks l) (hb : b ∈ liveTracks l) (hid : a.id = b.id) : a = b :=
  List.inj_on_of_nodup_map h ha hb hid

/-- Where no id stands twice, the track found for an id is the one a slot holds. -/
theorem State.trackOf_eq {s : State} (h : ((liveTracks s.tracks).map (·.id)).Nodup) {t : Track}
    (ht : t ∈ liveTracks s.tracks) : s.trackOf t.id = some t := by
  cases hf : s.trackOf t.id with
  | none => exact absurd rfl (State.trackOf_none.1 hf t ht)
  | some u =>
    obtain ⟨hu, hid⟩ := State.trackOf_some hf
    rw [SlotsOk.eq_of_id h hu ht hid]

theorem liveTracks_replaceTrack_some (l : List (Option Track)) (id : TrackId) (t : Track) :
    liveTracks (replaceTrack l id (some t)) = (liveTracks l).map fun x => if x.id = id then t else x := by
  induction l with
  | nil => rfl
  | cons o rest ih =>
    simp only [liveTracks, replaceTrack] at ih
    cases o with
    | none => simpa [liveTracks, replaceTrack] using ih
    | some x => by_cases hx : x.id = id <;> simpa [liveTracks, replaceTrack, hx] using ih

theorem liveTracks_replaceTrack_none (l : List (Option Track)) (id : TrackId) :
    liveTracks (replaceTrack l id none) = (liveTracks l).filter fun x => decide (x.id ≠ id) := by
  induction l with
  | nil => rfl
  | cons o rest ih =>
    simp only [liveTracks, replaceTrack] at ih
    cases o with
    | none => simpa [liveTracks, replaceTrack] using ih
    | some x => by_cases hx : x.id = id <;> simpa [liveTracks, replaceTrack, hx] using ih

/-! #### What an operation keeps of the table -/

/-- From `l` to `l'` the table stays sound, and every track has stood in it before and stays confirmed. -/
structure Descends (l l' : List (Option Track)) : Prop where
  ok : SlotsOk l → SlotsOk l'
  stood : SlotsOk l → ∀ t' ∈ liveTracks l', ∃ t ∈ liveTracks l, t.id = t'.id ∧ (t.confirmed = true → t'.confirmed = true)

/-- From `l` to `l'` the table stays sound, and every track has stood in it before and stays confirmed, or is of
a new id. -/
structure Follows (l l' : List (Option Track)) : Prop where
  ok : SlotsOk l → SlotsOk l'
  stood : SlotsOk l → ∀ t' ∈ liveTracks l',
    (∃ t ∈ liveTracks l, t.id = t'.id ∧ (t.confirmed = true → t'.confirmed = true)) ∨
      ∀ t ∈ liveTracks l, t.id ≠ t'.id

theorem Descends.refl (l : List (Option Track)) : Descends l l := ⟨id, fun _ t ht => ⟨t, ht, rfl, id⟩⟩

theorem Descends.trans {l m n : List (Option Track)} (h : Descends l m) (k : Descends m n) : Descends l n := by
  refine ⟨fun hl => k.ok (h.ok hl), fun hl t'' ht'' => ?_⟩
  obtain ⟨t', ht', hid', hc'⟩ := k.stood (h.ok hl) t'' ht''
  obtain ⟨t, ht, hid, hc⟩ := h.stood hl t' ht'
  exact ⟨t, ht, hid.trans hid', fun ht => hc' (hc ht)⟩

theorem Descends.follows {l m : List (Option Track)} (h : Descends l m) : Follows l m :=
  ⟨h.ok, fun hl t ht => .inl (h.stood hl t ht)⟩

theorem Follows.trans {l m n : List (Option Track)} (h : Follows l m) (k : Descends m n) : Follows l n := by
  refine ⟨fun hl => k.ok (h.ok hl), fun hl t'' ht'' => ?_⟩
  obtain ⟨t', ht', hid', hc'⟩ := k.stood (h.ok hl) t'' ht''
  obtain ⟨t, ht, hid, hc⟩ | hnew := h.stood hl t' ht'
  · exact .inl ⟨t, ht, hid.trans hid', fun ht => hc' (hc ht)⟩
  · exact .inr fun t ht => hid' ▸ hnew t ht

theorem slotsOk_empty : SlotsOk emptySlots := by
  have hlive : liveTracks emptySlots = [] := rfl
  refine ⟨rfl, ?_, ?_⟩
  · rw [hlive]
    exact List.nodup_nil
  · rw [hlive]
    exact nofun

/-- R83: an emptied table. -/
theorem Descends.empty (l : List (Option Track)) : Descends l emptySlots :=
  ⟨fun _ => slotsOk_empty, fun _ t ht => absurd (show t ∈ ([] : List Track) from ht) (by simp)⟩

/-- A track put in the place of one, itself or of an id not held: no id stands twice. -/
theorem SlotsOk.replace {l : List (Option Track)} (h : SlotsOk l) {id : TrackId} {t : Track} (ht : TrackOk t)
    (hid : t.id = id ∨ ∀ x ∈ liveTracks l, x.id ≠ t.id) : SlotsOk (replaceTrack l id (some t)) := by
  obtain ⟨hlen, hids, hok⟩ := h
  refine ⟨by simpa using hlen, ?_, ?_⟩
  · rw [liveTracks_replaceTrack_some, List.map_map]
    refine List.Nodup.map_on (fun x hx y hy hxy => ?_) hids.of_map
    simp only [Function.comp_apply] at hxy
    split at hxy <;> split at hxy
    · next h1 h2 => exact SlotsOk.eq_of_id hids hx hy (h1.trans h2.symm)
    · next h1 h2 =>
      obtain rfl | hfree := hid
      · exact absurd hxy.symm h2
      · exact absurd hxy.symm (hfree y hy)
    · next h1 h2 =>
      obtain rfl | hfree := hid
      · exact absurd hxy h1
      · exact absurd hxy (hfree x hx)
    · exact SlotsOk.eq_of_id hids hx hy hxy
  · rw [liveTracks_replaceTrack_some]
    rintro y hy
    obtain ⟨x, hx, rfl⟩ := List.mem_map.1 hy
    split
    · exact ht
    · exact hok x hx

/-- A track changed in its slot. -/
theorem Descends.replace {l : List (Option Track)} {t u : Track} (ht : t ∈ liveTracks l) (hid : u.id = t.id)
    (hok : TrackOk t → TrackOk u) (hc : t.confirmed = true → u.confirmed = true) :
    Descends l (replaceTrack l t.id (some u)) := by
  refine ⟨fun h => h.replace (hok (h.2.2 t ht)) (.inl hid), fun h y hy => ?_⟩
  rw [liveTracks_replaceTrack_some] at hy
  obtain ⟨x, hx, rfl⟩ := List.mem_map.1 hy
  split
  · exact ⟨t, ht, hid.symm, hc⟩
  · exact ⟨x, hx, rfl, fun h => h⟩

/-- A track that leaves the table. -/
theorem Descends.remove (l : List (Option Track)) (id : TrackId) : Descends l (replaceTrack l id none) := by
  refine ⟨fun h => ⟨by simpa using h.1, ?_, ?_⟩, fun _ t ht => ?_⟩
  · rw [liveTracks_replaceTrack_none]
    exact h.2.1.sublist (List.filter_sublist.map _)
  · rw [liveTracks_replaceTrack_none]
    exact fun t ht => h.2.2 t (List.mem_filter.1 ht).1
  · rw [liveTracks_replaceTrack_none] at ht
    exact ⟨t, (List.mem_filter.1 ht).1, rfl, fun h => h⟩

/-! #### Sighting lists (R60, R70) -/

theorem withoutStation_length_le (l : List Sighting) (n : Nat) : (withoutStation l n).length ≤ l.length :=
  List.length_filter_le _ _

theorem mem_withoutStation {l : List Sighting} {n : Nat} {x : Sighting} :
    x ∈ withoutStation l n ↔ x ∈ l ∧ x.station ≠ n := by simp [withoutStation]

/-- R60, R70: a sighting placed leaves 1 to 6 sightings. -/
theorem placeSighting_length {l : List Sighting} (h : l.length ≤ Config.maxSightings) (x : Sighting) :
    1 ≤ (placeSighting l x).length ∧ (placeSighting l x).length ≤ Config.maxSightings := by
  have hle := withoutStation_length_le l x.station
  have hmax : Config.maxSightings = 6 := rfl
  rw [hmax] at h ⊢
  refine ⟨?_, overflow_length (by rw [insertSighting_length]; omega)⟩
  unfold placeSighting overflow
  have hpos : 0 < (insertSighting x (withoutStation l x.station)).length := by
    rw [insertSighting_length]
    omega
  split
  · next hlong =>
    rw [hmax] at hlong
    rw [List.length_eraseIdx]
    split <;> omega
  · exact hpos

/-- R60: a sighting placed takes the place of any that its station held. -/
theorem placeSighting_stations {l : List Sighting} (h : (l.map (·.station)).Nodup) (x : Sighting) :
    ((placeSighting l x).map (·.station)).Nodup := by
  have hperm := (insertSighting_perm x (withoutStation l x.station)).map (·.station)
  have hins : ((insertSighting x (withoutStation l x.station)).map (·.station)).Nodup := by
    refine hperm.nodup_iff.2 (List.nodup_cons.2 ⟨fun hmem => ?_, h.sublist (List.filter_sublist.map _)⟩)
    obtain ⟨y, hy, hyx⟩ := List.mem_map.1 hmem
    exact (mem_withoutStation.1 hy).2 hyx
  exact hins.sublist ((overflow_sublist _).map _)

/-! #### Tracks -/

/-- What R59, R60 and R62 say of a track whose derived fields have not been completed. -/
structure TrackShaped (t : Track) : Prop where
  some_sighting : 1 ≤ t.sightings.length
  few_sightings : t.sightings.length ≤ Config.maxSightings
  stations : (t.sightings.map (·.station)).Nodup
  close : t.close.isSome = true ↔ t.state = .fading
  onset : t.onset = none ↔ t.placeholder = true
  confirmed : t.state = .confirmed → t.confirmed = true

theorem TrackOk.shaped {t : Track} (h : TrackOk t) : TrackShaped t := by
  obtain ⟨h1, h2, h3, -, -, -, h4, h5, h6, -⟩ := h
  exact ⟨h1, h2, h3, h4, h5, h6⟩

/-- R71: completion derives the fields, and settles the state by the confirmed mark. -/
theorem Track.complete_eq (m : Memory) {t : Track} (h : TrackShaped t) :
    t.complete m = { t with
      peakSpeed := peakSpeedOf t.sightings, peakDust := peakDustOf t.sightings, w := t.sightings.any (·.w)
      confirmed := t.confirmed || confirms m t.sightings
      state := if t.confirmed || confirms m t.sightings then .confirmed else .opened
      close := none
      fade := t.last + seconds (site m).fadeTime } := by
  obtain ⟨-, -, -, hclose, -, hconf⟩ := h
  obtain ⟨id, state, confirmed, placeholder, onset, sector, sightings, peakSpeed, peakDust, w, last, fade, close⟩ := t
  cases state with
  | opened =>
    have : close = none := by simpa using hclose
    simp [Track.complete, Track.derive, Track.settle, this]
  | confirmed =>
    have hc : close = none := by simpa using hclose
    have hm : confirmed = true := hconf rfl
    simp [Track.complete, Track.derive, Track.settle, hc, hm]
  | fading => rfl

theorem TrackShaped.complete (m : Memory) {t : Track} (h : TrackShaped t) : TrackOk (t.complete m) := by
  rw [Track.complete_eq m h]
  refine ⟨h.some_sighting, h.few_sightings, h.stations, rfl, rfl, rfl, ?_, h.onset, ?_, ?_⟩
  · simp only [Option.isSome_none, Bool.false_eq_true, false_iff]
    split <;> simp
  · intro hs
    simp only at hs ⊢
    split at hs
    · assumption
    · cases hs
  · intro hs
    simp only at hs ⊢
    split at hs
    · cases hs
    · next hno => simpa using hno

theorem one_le_maxSightings : 1 ≤ Config.maxSightings := by decide

theorem Request.newTrack_shaped (r : Request) : TrackShaped r.newTrack :=
  ⟨le_rfl, one_le_maxSightings, List.nodup_singleton _, by simp [Request.newTrack], by simp [Request.newTrack], nofun⟩

theorem Request.placeholderTrack_shaped (r : Request) : TrackShaped r.placeholderTrack :=
  ⟨le_rfl, one_le_maxSightings, List.nodup_singleton _, by simp [Request.placeholderTrack, Request.newTrack],
    by simp [Request.placeholderTrack], nofun⟩

theorem TrackShaped.joined {t : Track} (h : TrackShaped t) (x : Sighting) : TrackShaped (t.joined x) :=
  ⟨(placeSighting_length h.few_sightings x).1, (placeSighting_length h.few_sightings x).2,
    placeSighting_stations h.stations x, h.close, h.onset, h.confirmed⟩

theorem TrackShaped.fill {t : Track} (h : TrackShaped t) (r : Request) : TrackShaped (t.fill r) :=
  ⟨(placeSighting_length h.few_sightings _).1, (placeSighting_length h.few_sightings _).2,
    placeSighting_stations h.stations _, h.close, by simp [Track.fill], h.confirmed⟩

theorem TrackShaped.updated {t : Track} (h : TrackShaped t) (r : Request) : TrackShaped (t.updated r) := by
  unfold Track.updated
  split
  · refine ⟨by simpa using h.some_sighting, by simpa using h.few_sightings, ?_, h.close, h.onset, h.confirmed⟩
    rw [List.map_map, List.map_congr_left (g := (·.station))]
    · exact h.stations
    · intro x _
      simp only [Function.comp_apply]
      split <;> rfl
  · have hj := h.joined r.sighting
    exact ⟨hj.some_sighting, hj.few_sightings, hj.stations, hj.close, hj.onset, hj.confirmed⟩

theorem Track.updated_frame (t : Track) (r : Request) :
    (t.updated r).id = t.id ∧ (t.updated r).confirmed = t.confirmed := by
  unfold Track.updated
  split <;> exact ⟨rfl, rfl⟩

/-- R72: completion keeps the id and a confirmed mark. -/
theorem Track.complete_frame (m : Memory) (t : Track) :
    (t.complete m).id = t.id ∧ (t.complete m).confirmed = (t.confirmed || confirms m t.sightings) := by
  unfold Track.complete Track.settle
  simp only
  split <;> exact ⟨rfl, rfl⟩

theorem TrackOk.faded {t : Track} (h : TrackOk t) (now : Time) (closeTime : Nat) :
    TrackOk (t.faded now closeTime) := by
  obtain ⟨h1, h2, h3, h4, h5, h6, -, h8, -, -⟩ := h
  exact ⟨h1, h2, h3, h4, h5, h6, by simp [Track.faded], h8, nofun, nofun⟩

/-! #### One admission (R63–R69, R76–R78) -/

theorem mem_of_oldest {l : List Track} {t : Track} (h : oldest l = some t) : t ∈ l := by
  induction l generalizing t with
  | nil => cases h
  | cons x xs ih =>
    unfold oldest at h
    split at h
    · cases h
      exact List.mem_cons_self
    · next u hu =>
      split at h
      · cases h
        exact List.mem_cons_of_mem _ (ih hu)
      · cases h
        exact List.mem_cons_self

theorem mem_of_victim {ts : List Track} {time : Time} {v : Track} (h : victim ts time = some v) : v ∈ ts := by
  unfold victim at h
  split at h
  · next hv =>
    cases h
    exact (List.mem_filter.1 (mem_of_oldest hv)).1
  · split at h
    · next hv =>
      cases h
      exact (List.mem_filter.1 (mem_of_oldest hv)).1
    · split at h
      · next hv =>
        split at h
        · cases h
          exact (List.mem_filter.1 (mem_of_oldest hv)).1
        · cases h
      · cases h

/-- R76: a track created in a free slot or in the victim's. -/
theorem Follows.create {l l' : List (Option Track)} {t : Track} {time : Time} (h : createIn l t time = some l')
    (ht : TrackOk t) (hfree : ∀ x ∈ liveTracks l, x.id ≠ t.id) : Follows l l' := by
  unfold createIn at h
  split at h
  · next m hm =>
    cases h
    obtain ⟨a, b, rfl, rfl⟩ := fillFree_some hm
    have hlive : (liveTracks (a.map some ++ some t :: b)).Perm (t :: liveTracks (a.map some ++ none :: b)) := by
      simp only [liveTracks, List.filterMap_append, List.filterMap_cons, id_eq]
      exact List.perm_middle
    refine ⟨fun h => ⟨by simpa using h.1, ?_, fun x hx => ?_⟩, fun _ x hx => ?_⟩
    · refine (hlive.map (·.id)).nodup_iff.2 (List.nodup_cons.2 ⟨fun hmem => ?_, h.2.1⟩)
      obtain ⟨x, hx, hxt⟩ := List.mem_map.1 hmem
      exact hfree x hx hxt
    · obtain rfl | hx := List.mem_cons.1 (hlive.mem_iff.1 hx)
      · exact ht
      · exact h.2.2 x hx
    · obtain rfl | hx := List.mem_cons.1 (hlive.mem_iff.1 hx)
      · exact .inr hfree
      · exact .inl ⟨x, hx, rfl, fun h => h⟩
  · split at h
    · next v hv =>
      cases h
      refine ⟨fun h => h.replace ht (.inr hfree), fun _ x hx => ?_⟩
      rw [liveTracks_replaceTrack_some] at hx
      obtain ⟨y, hy, rfl⟩ := List.mem_map.1 hx
      split
      · exact .inr hfree
      · exact .inl ⟨y, hy, rfl, fun h => h⟩
    · cases h

/-- R63: a request leaves the table sound, its tracks standing on or new. -/
theorem admitSlots_follows {s : State} {r : Request} {m : Memory} {l : List (Option Track)}
    (h : admitSlots m s.tracks (s.trackOf r.id) r = (.admitted, l)) : Follows s.tracks l := by
  have held : ∀ {t u : Track}, s.trackOf r.id = some t → u.id = t.id → u.confirmed = t.confirmed →
      (TrackShaped t → TrackShaped u) → Follows s.tracks (replaceTrack s.tracks r.id (some (u.complete m))) := by
    intro t u ht hid hc hshape
    obtain ⟨hmem, hr⟩ := State.trackOf_some ht
    rw [← hr]
    have hframe := u.complete_frame m
    refine (Descends.replace hmem (hframe.1.trans hid) (fun hok => (hshape hok.shaped).complete m) ?_).follows
    intro hconf
    rw [hframe.2, hc, hconf]
    rfl
  unfold admitSlots at h
  split at h
  · next t ht =>
    split at h
    · split at h
      · cases h
        exact held ht rfl rfl fun k => k.fill r
      · cases h
    · cases h
      exact held ht rfl rfl fun k => k.joined r.sighting
    · cases h
      exact held ht (t.updated_frame r).1 (t.updated_frame r).2 fun k => k.updated r
  · next hnone =>
    simp only at h
    split at h
    · next l' hcreate =>
      cases h
      refine .create hcreate ?_ fun x hx => ?_
      · split
        · exact r.newTrack_shaped.complete m
        · exact r.placeholderTrack_shaped.complete m
      · have hid : (Track.complete m (if r.form = .new then r.newTrack else r.placeholderTrack)).id = r.id := by
          rw [(Track.complete_frame m _).1]
          split <;> rfl
        rw [hid]
        exact State.trackOf_none.1 hnone x hx
    · cases h

end Sys2Proof.Machine

/-! ### What the commands of the setup port and the window's expiry do to the working blocks -/

namespace Sys2Proof.Machine

/-- SFE as channel service leaves it (R31–R34). -/
def Served (f g : Sfe) : Prop :=
  g = f ∨ (∃ c lamp, g = f.takeOut c lamp) ∨ ∃ c pins active pending, g = { f.bringIn c pins active with ackPending := pending }

/-- `t` differs from `s` in tables, store and setup port, by channel service and by what the Notice Queue and QLC do;
whether the station takes part is as before. -/
def OnlySetup (s t : State) : Prop :=
  t = { s with
    pins := { s.pins with sselHigh := t.pins.sselHigh }, tables := t.tables, store := t.store, sfe := t.sfe
    nq := t.nq, qlc := t.qlc, raised := t.raised, scs := { t.scs with own := s.scs.own } } ∧
  t.active = s.active ∧ Served s.sfe t.sfe

/-- JOINING has been entered between `s` and `t`, after RESTART or without it (R184, R185). -/
def Rejoined (s t : State) : Prop :=
  t = { s with
    store := t.store, sfe := t.sfe, gdu := t.gdu, tracks := emptySlots, zev := zevSet s.tables s.scs.own
    nq := Nq.empty, qlc := t.qlc, prt := { s.prt with roster := clearedRoster s.scs.own, offsets := [] }
    scs := { t.scs with own := s.scs.own, station := .joining }, raised := t.raised } ∧
  (t.sfe = s.sfe ∨ t.sfe = s.sfe.restarted s.pins)

/-- What a command of the setup port, or the window's expiry, does. -/
def SetUp (s t : State) : Prop := OnlySetup s t ∨ Rejoined s t

theorem OnlySetup.of_scs {s : State} {c : Scs} (hown : c.own = s.scs.own) (hs : c.station = s.scs.station) :
    OnlySetup s { s with scs := c } := by
  refine ⟨?_, State.active_congr hs, .inl rfl⟩
  simp only [← hown]

theorem OnlySetup.refl (s : State) : OnlySetup s s := ⟨rfl, rfl, .inl rfl⟩

theorem SetUp.refl (s : State) : SetUp s s := .inl (.refl s)

theorem SetUp.of_scs {s : State} {c : Scs} (hown : c.own = s.scs.own) (hs : c.station = s.scs.station) :
    SetUp s { s with scs := c } := .inl (.of_scs hown hs)

theorem SetUp.command {s : State} {ok : StationState → Bool} {f : State → State}
    (hf : ok s.scs.station = true → SetUp s (f s)) : SetUp s (s.command ok f) :=
  State.command_cases (P := SetUp s) (.refl s) (fun _ => .of_scs rfl rfl) fun _ _ => hf

theorem SetUp.of_posts {s t : State} (h : OnlyPosts s t) : SetUp s t :=
  .inl ⟨by rw [h], h.active, .inl h.sfe⟩

theorem SetUp.startCmd {s : State} (hs : s.scs.station = .setup) : SetUp s s.startCmd := by
  have ha := State.active_of_setup hs
  unfold State.startCmd
  simp only
  split
  · exact .of_scs rfl rfl
  · split
    · exact .inl ⟨rfl, ha ▸ rfl, .inl rfl⟩
    · exact .of_scs rfl rfl

theorem SetUp.onChannel (s : State) {f : State → Channel → State}
    (hf : ∀ c, f s c = { s with sfe := (f s c).sfe, raised := (f s c).raised } ∧ Served s.sfe (f s c).sfe) :
    SetUp s (s.onChannel f) := by
  unfold State.onChannel
  split
  · next c _ =>
    obtain ⟨hframe, hserved⟩ := hf c
    refine .inl ⟨?_, State.active_congr ?_, hserved⟩
    · rw [hframe]
      rfl
    · rw [hframe]
      rfl
  · exact .of_scs rfl rfl
  · exact .of_scs rfl rfl

/-- R33: SFE after CHANNEL IN. -/
theorem State.channelIn_served (s : State) (c : Channel) : Served s.sfe (s.channelIn c).sfe := by
  refine .inr (.inr ?_)
  obtain h | h := s.channelIn_cases c
  · exact ⟨c, s.pins, s.ownRec.supprHigh, _, by rw [h]; rfl⟩
  · refine ⟨c, s.pins, s.ownRec.supprHigh, true, ?_⟩
    rw [h.2.2, State.setAckPending_sfe]
    rfl

theorem SetUp.commandWrite (s : State) (code : Byte) : SetUp s (s.commandWrite code) := by
  unfold State.commandWrite
  split
  · refine .command fun hok => .inl ⟨rfl, ?_, .inl rfl⟩
    rw [State.active_of_window (of_decide_eq_true hok)]
    rfl
  · exact .command fun _ => .of_scs rfl rfl
  · exact .command fun _ => .inl ⟨rfl, rfl, .inl rfl⟩
  · exact .command fun hok => .startCmd (of_decide_eq_true hok)
  · refine .command fun _ => .inr ⟨?_, .inr ?_⟩
    · unfold State.restartCmd
      rw [State.restart_eq]
      rfl
    · change s.restart.sfe = _
      rw [State.restart_eq]
  · refine .command fun _ => .inl ?_
    unfold State.clearFaultsCmd
    rw [State.follow_only]
    exact ⟨rfl, rfl, .inl rfl⟩
  · exact .command fun _ => .onChannel s fun c => ⟨rfl, .inr (.inl ⟨c, s.pins.lamp, rfl⟩)⟩
  · exact .command fun _ => .onChannel s fun c => ⟨s.channelIn_frame c, s.channelIn_served c⟩
  · refine State.throughPort_cases (P := SetUp s) (.refl s) fun _ => ?_
    split <;> exact .of_scs rfl rfl

theorem SetUp.portWrite (s : State) (index : Nat) (data : Byte) : SetUp s (s.portWrite index data) := by
  have guarded : ∀ (b : State → Bool) (f : State → State), SetUp s (f s) →
      SetUp s (s.throughPort fun s => if b s then f s else s) := fun b f hf =>
    State.throughPort_cases (P := SetUp s) (.refl s) fun _ => by
      split
      · exact hf
      · exact .refl s
  have hadvance : ∀ c : Scs, c.advanceEntry.own = c.own ∧ c.advanceEntry.station = c.station := fun c => by
    rw [Scs.advanceEntry_frame]
    exact ⟨rfl, rfl⟩
  unfold State.portWrite
  split
  · exact .commandWrite s data
  · exact guarded _ _ (.of_scs rfl rfl)
  · exact guarded _ _ (.of_scs rfl rfl)
  · exact guarded _ _ (.of_scs (hadvance _).1 (hadvance _).2)
  · exact guarded _ _ (.of_scs rfl rfl)
  · exact guarded _ _ (.of_scs rfl rfl)
  · exact guarded _ _ (.of_scs rfl rfl)
  · exact .refl s

theorem SetUp.port {s t : State} (h : OnlyPort s t) : SetUp s t := by
  rw [h]
  exact .of_scs rfl rfl

theorem SetUp.windowExpires (s : State) : SetUp s s.windowExpires := by
  unfold State.windowExpires
  split
  · next hw =>
    have ha := State.active_of_window hw
    split
    · split
      · exact .inr ⟨rfl, .inl rfl⟩
      · exact .inl ⟨rfl, ha ▸ rfl, .inl rfl⟩
    · exact .inl ⟨rfl, ha ▸ rfl, .inl rfl⟩
  · exact .refl s

theorem SetUp.commitDone (s : State) : SetUp s s.commitDone := by
  unfold State.commitDone
  split
  · exact .inl ⟨rfl, rfl, .inl rfl⟩
  · exact .refl s

theorem OnlySetup.programmingFails {s : State} (ha : s.active = false) (st : Store) (table entry : Nat) :
    OnlySetup s (State.programmingFails { s with store := st } table entry) := by
  rw [State.programmingFails_eq]
  refine ⟨rfl, ?_, .inl rfl⟩
  rw [ha]
  rfl

theorem SetUp.storePage (s : State) (readBack : List Byte) : SetUp s (s.storePage readBack) := by
  unfold State.storePage
  split
  · exact .refl s
  · next p hp =>
    have ha := State.active_of_programming (State.inProgress_some hp).1
    split
    · unfold State.pageDone
      simp only
      split_ifs
      · exact .inl ⟨rfl, rfl, .inl rfl⟩
      · exact .inl (.programmingFails ha _ _ _)
      · exact .inl ⟨rfl, rfl, .inl rfl⟩
    · exact .refl s

theorem SetUp.storeHeader (s : State) (valid : Bool) (checksum : Word16) : SetUp s (s.storeHeader valid checksum) := by
  unfold State.storeHeader
  split
  · exact .refl s
  · next p hp =>
    have ha := State.active_of_programming (State.inProgress_some hp).1
    split
    · exact .refl s
    · unfold State.headerDone
      split_ifs
      · exact .inr ⟨rfl, .inl rfl⟩
      · exact .inl (.programmingFails ha s.store _ _)
      · exact .inl ⟨rfl, rfl, .inl rfl⟩

/-- The rows of the setup port, the window's expiry and the events of the loading. -/
def ofSetup (c : Instr) : Bool :=
  match c with
  | .powerOn _ _ _ | .lineReset _ _ _ | .epochBoundary => false
  | c => !ofBlocks c

/-- Every row of the setup port keeps to that. -/
theorem State.after_setUp {c : Instr} (h : ofSetup c = true) (s : State) : SetUp s (s.after c) := by
  have claim : ∀ {f : State → State}, SetUp s (f s) → SetUp s (s.unlessHeld f) := fun hf =>
    State.unlessHeld_cases (P := SetUp s) (.refl s) fun _ => hf
  have claimed : ∀ {f : State → State} (p : Instr → Bool), (∀ u, SetUp u (f u)) →
      SetUp s ((s.takeEvent p).unlessHeld f) := fun p hf => by
    refine State.unlessHeld_cases (P := SetUp s) (.inl ⟨rfl, rfl, .inl rfl⟩) fun _ => ?_
    obtain ⟨h, ha, hs⟩ | ⟨h, hs⟩ := hf (s.takeEvent p)
    · exact .inl ⟨h, ha, hs⟩
    · exact .inr ⟨h, hs⟩
  cases c with
  | windowExpiry => exact claimed _ .windowExpires
  | hold => exact .commandWrite s 1
  | clearBuffer => exact .commandWrite s 2
  | commitPage => exact .commandWrite s 3
  | commitComplete => exact claimed _ .commitDone
  | start => exact .commandWrite s 4
  | storePageDone readBack => exact claim (f := fun s => s.storePage readBack) (.storePage s readBack)
  | storeHeaderDone valid checksum => exact claim (f := fun s => s.storeHeader valid checksum) (.storeHeader s valid checksum)
  | restart => exact .commandWrite s 5
  | clearFaults => exact .commandWrite s 6
  | channelOut => exact .commandWrite s 7
  | channelIn => exact .commandWrite s 8
  | unknownCommand code => exact .commandWrite s code
  | tableSelectWrite data => exact .portWrite s 0x05 data
  | entryPointerWrite data => exact .portWrite s 0x06 data
  | entryDataWrite data => exact .portWrite s 0x07 data
  | entryDataRead => exact .port s.entryRead_only
  | expectedChecksumH data => exact .portWrite s 0x08 data
  | expectedChecksumL data => exact .portWrite s 0x09 data
  | viewSelect code => exact .portWrite s 0x10 code
  | viewData => exact .port s.viewRead_only
  | registerWriteIgnored index data => exact .portWrite s _ data
  | transactionAbandon => exact .inl ⟨rfl, rfl, .inl rfl⟩
  | _ => cases h

end Sys2Proof.Machine

/-! ### Track Table: every step (O58), confirmation (O36, O37) and deadlines (O38) -/

namespace Sys2Proof.Machine

/-! #### Fades, removals and admissions -/

theorem Descends.of_eq {l l' : List (Option Track)} (h : l' = l) : Descends l l' := h ▸ .refl l

/-- A change of the other blocks before. -/
theorem Descends.frame {l m n : List (Option Track)} (k : Descends m n) (h : m = l) : Descends l n := h ▸ k

theorem Follows.frame {l m n : List (Option Track)} (k : Follows m n) (h : m = l) : Follows l n := h ▸ k

theorem OnlyHears.tracks {s t : State} (h : OnlyHears s t) : t.tracks = s.tracks := by rw [h]

theorem State.fadeTrack_descends (s : State) (id : TrackId) : Descends s.tracks (s.fadeTrack id).tracks := by
  obtain ⟨-, h⟩ | ⟨t, ht, -, h⟩ := s.fadeTrack_cases id
  · exact .of_eq (by rw [h])
  · obtain ⟨hmem, rfl⟩ := State.trackOf_some ht
    rw [h]
    exact .replace hmem rfl (fun hok => hok.faded _ _) fun hc => hc

theorem State.closeTrack_descends (s : State) (id : TrackId) : Descends s.tracks (s.closeTrack id).tracks := by
  unfold State.closeTrack
  split
  · exact .refl _
  · split
    · exact .remove _ _
    · exact .refl _

theorem State.admission_follows (s : State) (r : Request) (peer : Bool) :
    Follows s.tracks (s.admission r peer).2.tracks := by
  obtain ⟨-, h⟩ | ⟨l, -, hl, h⟩ := s.admit_cases r peer
  · rw [h]
    exact (Descends.refl _).follows
  · rw [h]
    exact (admitSlots_follows hl).trans (.frame (State.fadeTrack_descends _ _) rfl)

/-! #### Deadlines passed together (R75) -/

theorem Track.pass_eq {t u : Track} {now : Time} {c : Nat} (h : (t.pass now c).1 = some u) :
    u = t ∨ u = t.faded now c := by
  have hpass : ∀ (v : Track) n, (if v.closeDue now then (none, n + 1) else (some v, n) : Option Track × Nat).1 =
      some u → u = v := fun v n hv => by
    split at hv
    · cases hv
    · exact (Option.some.inj hv).symm
  have hu := hpass _ _ h
  split at hu
  · exact .inr hu
  · exact .inl hu

theorem liveTracks_passTracks (l : List (Option Track)) (now : Time) (c : Nat) :
    liveTracks (passTracks l now c) = (liveTracks l).filterMap fun t => (t.pass now c).1 := by
  unfold liveTracks passTracks
  rw [List.filterMap_map, List.filterMap_filterMap]
  rfl

theorem filterMap_ids_sublist {f : Track → Option Track} (hf : ∀ t u, f t = some u → u.id = t.id)
    (ts : List Track) : ((ts.filterMap f).map (·.id)).Sublist (ts.map (·.id)) := by
  induction ts with
  | nil => exact .slnil
  | cons t ts ih =>
    cases h : f t with
    | none =>
      rw [List.filterMap_cons_none h]
      exact ih.cons _
    | some u =>
      rw [List.filterMap_cons_some h, List.map_cons, List.map_cons, hf t u h]
      exact ih.cons_cons _

theorem passTracks_descends (l : List (Option Track)) (now : Time) (c : Nat) :
    Descends l (passTracks l now c) := by
  have hid : ∀ t u : Track, (t.pass now c).1 = some u → u.id = t.id := fun t u h => by
    obtain rfl | rfl := Track.pass_eq h <;> rfl
  refine ⟨fun h => ⟨by simpa using h.1, ?_, fun u hu => ?_⟩, fun _ u hu => ?_⟩
  · rw [liveTracks_passTracks]
    exact h.2.1.sublist (filterMap_ids_sublist hid _)
  · rw [liveTracks_passTracks] at hu
    obtain ⟨t, ht, htu⟩ := List.mem_filterMap.1 hu
    obtain rfl | rfl := Track.pass_eq htu
    · exact h.2.2 _ ht
    · exact (h.2.2 _ ht).faded _ _
  · rw [liveTracks_passTracks] at hu
    obtain ⟨t, ht, htu⟩ := List.mem_filterMap.1 hu
    refine ⟨t, ht, (hid t u htu).symm, fun hc => ?_⟩
    obtain rfl | rfl := Track.pass_eq htu <;> exact hc

theorem State.silence_hears (s : State) (n : Nat) : OnlyHears s (s.silence n) := by
  unfold State.silence
  split
  · exact .refl s
  · split
    · exact s.writeRoster_hears n _ _
    · exact .refl s

theorem State.silences_hears (s : State) (l : List Nat) :
    OnlyHears s (l.foldl (fun s k => s.silence (k + 1)) s) := by
  induction l generalizing s with
  | nil => exact .refl s
  | cons k l ih => exact (s.silence_hears _).trans (ih _)

/-- R75: the slots once every deadline that common time has reached has passed. -/
theorem State.passDeadlines_tracks (s : State) :
    s.passDeadlines.tracks = passTracks s.tracks s.prt.time (site s.tables).closeTime :=
  (State.silences_hears s.passTrackDeadlines _).tracks

theorem State.passDeadlines_descends (s : State) : Descends s.tracks s.passDeadlines.tracks := by
  rw [State.passDeadlines_tracks]
  exact passTracks_descends _ _ _

/-! #### Common time -/

theorem State.count_descends (s : State) : Descends s.tracks s.count.tracks := by
  refine State.unlessHeld_cases (P := fun t => Descends s.tracks t.tracks) (.refl _) fun _ => ?_
  have hraise : ∀ u : State, u.raiseAtCount.tracks = u.tracks := fun u => by rw [State.raiseAtCount_frame]
  exact .frame (State.passDeadlines_descends _) (hraise _)

theorem State.gainOrWithhold_descends (s : State) (gain : Bool) :
    Descends s.tracks (s.gainOrWithhold gain).tracks := by
  unfold State.gainOrWithhold
  split
  · exact s.count_descends
  · exact .refl _

theorem State.slewStep_descends (s : State) : Descends s.tracks s.slewStep.tracks := by
  unfold State.slewStep
  split
  · exact .refl _
  · exact .frame (State.gainOrWithhold_descends _ _) rfl

theorem State.trimStep_descends (s : State) : Descends s.tracks s.trimStep.tracks := by
  unfold State.trimStep
  split
  · exact .refl _
  · exact .frame (State.gainOrWithhold_descends _ _) rfl

theorem State.clockMs_descends (s : State) : Descends s.tracks s.clockMs.tracks := by
  have hslew : Descends s.tracks s.slewMs.tracks := by
    unfold State.slewMs
    split_ifs
    · exact .refl _
    · exact .refl _
    · exact s.slewStep_descends
  have htrim : ∀ u : State, Descends u.tracks u.trimMs.tracks := fun u => by
    unfold State.trimMs
    split_ifs
    · exact .refl _
    · exact .refl _
    · exact u.trimStep_descends
  have hcount : ∀ u : State, Descends u.tracks u.countMs.tracks := fun u => by
    unfold State.countMs
    split
    · exact u.count_descends
    · exact .refl _
  exact (hslew.trans (htrim _)).trans (hcount _)

theorem State.quietMs_only (s : State) : OnlyPosts s s.quietMs := by
  unfold State.quietMs
  split
  · unfold State.busyMs
    split_ifs <;> rfl
  · exact (OnlyPosts.mapQlc s _).trans (State.expiryCheck_only _)

theorem State.millisecond_descends (s : State) : Descends s.tracks s.millisecond.tracks := by
  rw [State.millisecond_eq]
  refine State.unlessHeld_cases (P := fun t => Descends s.tracks t.tracks) s.clockMs_descends fun _ => ?_
  rw [State.inputsMs_only]
  exact s.clockMs_descends.trans (.of_eq (State.quietMs_only _).tracks)

theorem OnlyFaults.tracks {s t : State} (h : OnlyFaults s t) : t.tracks = s.tracks := by rw [h]

theorem State.boundaryNotice_tracks (s : State) : s.boundaryNotice.tracks = s.tracks := by
  have henter : ∀ u : State, u.enterOperating.tracks = u.tracks := fun u =>
    ((State.postLevels_only _ _).trans (State.follow_only _)).tracks
  unfold State.boundaryNotice
  simp only
  change (ite _ _ _ : State).tracks = s.tracks
  split
  · split
    · exact henter _
    · rfl
  · rfl

theorem State.corrected_tracks (s : State) : s.corrected.tracks = s.tracks := by
  have hslew : ∀ (u : State) c, (u.slewTime c).tracks = u.tracks := fun u c => by
    unfold State.slewTime
    simp only
    split
    · exact (State.faultEvent_only _ _).tracks
    · rfl
  unfold State.corrected State.applyCorrection
  split
  · simp only
    split
    · rfl
    · exact hslew _ _
  · rfl

theorem State.epochBoundary_tracks (s : State) : s.epochBoundary.tracks = s.tracks := by
  rw [State.epochBoundary_eq, State.boundaryNotice_tracks]
  exact s.corrected_tracks

theorem State.boundaryTaken_descends (s : State) : Descends s.tracks s.boundaryTaken.tracks := by
  unfold State.boundaryTaken
  simp only
  have hb := Descends.of_eq s.epochBoundary_tracks
  split
  · exact hb
  · exact hb.trans (State.passDeadlines_descends _)

/-! #### The sample, a frame and the pre-check -/

theorem Follows.of_eq {l l' : List (Option Track)} (h : l' = l) : Follows l l' := (Descends.of_eq h).follows

theorem State.localJoin_follows (s : State) (e : Episode) (id : TrackId) :
    Follows s.tracks (s.localJoin e id).tracks := by
  unfold State.localJoin
  simp only
  rw [(State.post_only _ _ _).tracks]
  exact s.admission_follows _ _

theorem State.localNew_follows (s : State) (e : Episode) : Follows s.tracks (s.localNew e).tracks := by
  unfold State.localNew
  split
  · exact .of_eq rfl
  · simp only
    rw [(State.post_only _ _ _).tracks]
    exact s.admission_follows _ _

theorem State.update_follows (s : State) (e : Episode) (u : Time) : Follows s.tracks (s.update e u).tracks := by
  unfold State.update
  split
  · exact .of_eq rfl
  · split
    · simp only [State.setMode_eq, State.mapGdu_tracks]
      rw [(State.post_only _ _ _).tracks]
      exact s.admission_follows _ _
    · exact .of_eq rfl

theorem State.gduSample_follows (s : State) (r : SampleRecord) : Follows s.tracks (s.gduSample r).tracks := by
  have hmode : ∀ m, Follows s.tracks (s.setMode m).tracks := fun _ => .of_eq rfl
  unfold State.gduSample
  split
  · split
    · exact hmode _
    · exact hmode _
    · split
      · unfold State.onset
        simp only
        split
        · split
          · exact State.localJoin_follows (s.mapSfe fun f => { f with latch := false }) _ _
          · exact State.localNew_follows (s.mapSfe fun f => { f with latch := false }) _
        · exact .of_eq rfl
      · exact hmode _
    · unfold State.episodeSample
      generalize (if s.qualifies r then 0 else _ + 1) = quiet
      simp only
      split_ifs
      · exact hmode _
      · exact s.update_follows _ _
      · exact hmode _
  · exact hmode _

theorem State.sample_follows (s : State) (vane : BitVec 4) (lamp : Bool) :
    Follows s.tracks (s.sample vane lamp).tracks := by
  rw [State.sample_eq]
  have hf := ((s.sampled vane lamp).sampleFaults_only s.sfe (s.sampleSfe vane lamp)).tracks
  exact hf ▸ State.gduSample_follows _ _

theorem State.dispatchSighting_follows (s : State) (frame : List Byte) (sender : Nat) (p : SightingNotice) :
    Follows s.tracks (s.dispatchSighting frame sender p).tracks := by
  unfold State.dispatchSighting
  simp only
  generalize Request.mk _ _ _ _ _ = r
  have hs := s.admission_follows r true
  generalize s.admission r true = a at hs
  obtain ⟨answer, u⟩ := a
  cases answer <;> exact hs

theorem State.dispatch_follows (s : State) (k : FrameKind) (frame : List Byte) (arrival : Time) :
    Follows s.tracks (s.dispatch k frame arrival).tracks := by
  unfold State.dispatch
  simp only
  split
  · split
    · exact .of_eq rfl
    · exact .of_eq (s.takePresence_only _ _ _ _).tracks
  · split
    · exact .of_eq rfl
    · split
      · exact .of_eq rfl
      · exact s.dispatchSighting_follows _ _ _
  · split
    · exact .of_eq rfl
    · split_ifs
      · exact .of_eq rfl
      · exact .of_eq rfl
      · exact .of_eq rfl
      · exact .of_eq (OnlyHears.of_reports (s.takeReport_only _ _ _)).tracks

theorem State.endFrame_follows (s : State) (r : RxFrame) : Follows s.tracks (s.endFrame r).tracks := by
  have hsender : ∀ (u : State) k frame arrival, Follows u.tracks (u.checkSender k frame arrival).tracks :=
    fun u k frame arrival => by
      unfold State.checkSender
      simp only
      have hh := (u.heard_only (byteAt frame 2)).tracks
      split_ifs
      · exact .of_eq rfl
      · exact .of_eq ((State.faultEvent_only _ _).tracks.trans hh)
      · exact .of_eq hh
      · exact hh ▸ State.dispatch_follows _ _ _ _
  unfold State.endFrame State.receive
  split
  · exact .of_eq rfl
  · simp only
    split
    · exact .of_eq rfl
    · split
      · exact .frame (hsender _ _ _ _) rfl
      · exact .of_eq rfl

theorem State.frameReceived_follows (s : State) (chars : List Byte) :
    Follows s.tracks (s.frameReceived chars).tracks := by
  unfold State.frameReceived
  split
  · unfold State.readChars
    simp only
    split_ifs
    · exact s.charsRead.endFrame_follows _
    · exact .of_eq rfl
    · exact .of_eq rfl
  · exact .of_eq rfl

theorem State.lineIdle_follows (s : State) : Follows s.tracks s.lineIdle.tracks := by
  unfold State.lineIdle
  split
  · rw [(State.follow_only _).tracks, State.mapQlc_tracks, ← s.stopHoldoff_only.tracks]
    unfold State.endTruncated
    split
    · exact State.endFrame_follows _ _
    · exact .of_eq rfl
  · exact .of_eq rfl

theorem State.collision_follows (s : State) : Follows s.tracks s.collision.tracks := by
  unfold State.collision
  split
  · exact .of_eq rfl
  · next k _ =>
    rw [← (s.collided_only k).tracks]
    unfold State.endWhole
    split
    · split
      · exact State.endFrame_follows _ _
      · exact .of_eq rfl
    · exact .of_eq rfl

theorem State.rewrite_descends {s t : State} {p q : TrackId} (h : s.rewrite p q = some t) :
    Descends s.tracks t.tracks := by
  obtain ⟨tp, tq, x, htp, -, -, -, rfl⟩ := State.rewrite_some h
  obtain ⟨hmem, rfl⟩ := State.trackOf_some htp
  have hframe := (tp.joined x).complete_frame s.tables
  refine (Descends.trans ?_ (Descends.remove _ q)).trans (.frame (State.fadeTrack_descends _ _) rfl)
  refine .replace hmem hframe.1 (fun hok => (hok.shaped.joined x).complete _) fun hc => ?_
  rw [hframe.2, show (tp.joined x).confirmed = true from hc]
  rfl

theorem State.preCheck_descends (s : State) (p : TrackId) : Descends s.tracks (s.preCheck p).tracks := by
  unfold State.preCheck
  split
  · exact .refl _
  · split
    · exact .refl _
    · split
      · exact .refl _
      · split
        · next hr _ =>
          rw [(State.follow_only _).tracks]
          exact .trans (State.rewrite_descends hr) (.of_eq rfl)
        · exact .refl _

/-! #### Every step -/

theorem OnlyEvaluates.tracks {s t : State} (h : OnlyEvaluates s t) : t.tracks = s.tracks := by rw [h]

theorem State.ackEvaluation_tracks (s : State) : s.ackEvaluation.tracks = s.tracks := by
  unfold State.ackEvaluation
  split
  · exact (s.mapSfe fun f => { f with ackPending := false }).evaluate_only.tracks
  · rfl

theorem State.after_follows (c : Instr) (s : State) : Follows s.tracks (s.after c).tracks := by
  have claim : ∀ {f : State → State}, Follows s.tracks (f s).tracks → Follows s.tracks (s.unlessHeld f).tracks :=
    fun hf => State.unlessHeld_cases (P := fun t => Follows s.tracks t.tracks) (.of_eq rfl) fun _ => hf
  have claimed : ∀ {f : State → State} (p : Instr → Bool), (∀ u, Follows u.tracks (f u).tracks) →
      Follows s.tracks ((s.takeEvent p).unlessHeld f).tracks := fun p hf =>
    State.unlessHeld_cases (P := fun t => Follows s.tracks t.tracks) (.of_eq rfl) fun _ => hf (s.takeEvent p)
  cases hc : ofSetup c
  · cases c with
    | powerOn sn suppr ack => exact (Descends.empty _).follows
    | lineReset sn suppr ack => exact (Descends.empty _).follows
    | rstAssert => exact .of_eq rfl
    | sampleEvent vane lamp => exact claimed _ fun u => u.sample_follows vane lamp
    | pulseEdge line => exact claim (f := fun s => s.mapSfe fun f => f.pulse line) (.of_eq rfl)
    | supprTransition level =>
      exact claimed (f := fun s => { s with
        pins := { s.pins with suppr := level }, sfe := s.sfe.supprChange level s.ownRec.supprHigh }) _
        fun _ => .of_eq rfl
    | ackTransition level =>
      refine claimed (f := fun s => ({ s with pins := { s.pins with ack := level } } : State).ackChange level) _
        fun u => ?_
      rw [State.ackChange_frame]
      exact .of_eq rfl
    | lineBusy => exact claim (.of_eq s.lineBusy_only.tracks)
    | lineIdle => exact claimed _ State.lineIdle_follows
    | holdoffExpiry quiet => exact claimed _ fun u => .of_eq (u.holdoffExpiry_only quiet).tracks
    | transmitSuccess => exact claim (.of_eq s.transmitSuccess_only.tracks)
    | collision => exact claim s.collision_follows
    | frameReceived chars => exact claim (f := fun s => s.frameReceived chars) (s.frameReceived_follows chars)
    | preCheck id => exact claimed _ fun u => (u.preCheck_descends id).follows
    | fadeDeadline id => exact claimed _ fun u => (u.fadeTrack_descends id).follows
    | closeDeadline id => exact claimed _ fun u => (u.closeTrack_descends id).follows
    | silenceDeadline n => exact claimed _ fun u => .of_eq (u.silence_hears n).tracks
    | tick => exact claimed _ fun u => .of_eq u.evaluate_only.tracks
    | evaluation => exact claimed _ fun u => .of_eq u.evaluate_only.tracks
    | ackEvaluation => exact claimed _ fun u => .of_eq u.ackEvaluation_tracks
    | epochBoundary => exact claimed _ fun u => u.boundaryTaken_descends.follows
    | slewStep => exact s.slewStep_descends.follows
    | trimStep => exact s.trimStep_descends.follows
    | schedulePoint => exact claimed _ fun u => .of_eq u.schedulePoint_only.tracks
    | _ => cases hc
  · obtain ⟨h, -, -⟩ | ⟨h, -⟩ := State.after_setUp hc s
    · exact .of_eq (by rw [h])
    · rw [h]
      exact (Descends.empty _).follows

theorem step_follows {s t : State} (h : step s = .next t) : Follows s.tracks t.tracks := by
  obtain ⟨c, l, rfl⟩ | rfl := step_cases h
  · exact State.after_follows c { s with pending := l }
  · exact s.millisecond_descends.follows

/-- Settles O58: every command keeps the table sound (`State.after_follows`), and so does the millisecond. -/
theorem tracksStay : Obligations.TracksStay := fun _ _ hs hstep => (step_follows hstep).ok hs

/-! #### Confirmation (R72) -/

/-- Settles O37: after a step a track of that id is the one it was, or of an id that none had. -/
theorem confirmedStays : Obligations.ConfirmedStays := by
  intro s s' id t t' hs hstep ht hc ht'
  obtain ⟨hmem, rfl⟩ := State.trackOf_some ht
  obtain ⟨hmem', hid⟩ := State.trackOf_some ht'
  obtain ⟨u, hu, huid, huc⟩ | hnew := (step_follows hstep).stood hs t' hmem'
  · rw [SlotsOk.eq_of_id hs.2.1 hu hmem (huid.trans hid)] at huc
    exact huc hc
  · exact absurd hid.symm (hnew t hmem)

end Sys2Proof.Machine

/-! ### Track Table: looking up a track after a change, confirmation (O36) and deadlines (O38) -/

namespace Sys2Proof.Machine

/-- The track of an id among slots. -/
def slotTrack (l : List (Option Track)) (id : TrackId) : Option Track :=
  l.findSome? fun o => o.bind fun t => if t.id = id then some t else none

theorem State.trackOf_eq_slotTrack (s : State) (id : TrackId) : s.trackOf id = slotTrack s.tracks id := by
  unfold State.trackOf slotTrack
  congr 1
  funext o
  cases o <;> rfl

@[simp] theorem slotTrack_nil (id : TrackId) : slotTrack [] id = none := rfl

@[simp] theorem slotTrack_free (l : List (Option Track)) (id : TrackId) :
    slotTrack (none :: l) id = slotTrack l id := rfl

@[simp] theorem slotTrack_taken (x : Track) (l : List (Option Track)) (id : TrackId) :
    slotTrack (some x :: l) id = if x.id = id then some x else slotTrack l id := by
  by_cases h : x.id = id <;> simp [slotTrack, h]

@[simp] theorem replaceTrack_free (l : List (Option Track)) (id : TrackId) (o : Option Track) :
    replaceTrack (none :: l) id o = none :: replaceTrack l id o := rfl

theorem replaceTrack_taken (x : Track) (l : List (Option Track)) (id : TrackId) (o : Option Track) :
    replaceTrack (some x :: l) id o = (if x.id = id then o else some x) :: replaceTrack l id o := rfl

/-- The changed track is what its id then finds. -/
theorem slotTrack_replace_same {l : List (Option Track)} {id : TrackId} {t u : Track}
    (h : slotTrack l id = some t) (hu : u.id = id) : slotTrack (replaceTrack l id (some u)) id = some u := by
  induction l with
  | nil => cases h
  | cons o l ih =>
    cases o with
    | none => exact ih h
    | some x =>
      rw [replaceTrack_taken]
      by_cases hx : x.id = id
      · simp [hx, hu]
      · simp only [slotTrack_taken, hx, if_false] at h ⊢
        exact ih h

theorem slotTrack_remove_same (l : List (Option Track)) (id : TrackId) :
    slotTrack (replaceTrack l id none) id = none := by
  induction l with
  | nil => rfl
  | cons o l ih =>
    cases o with
    | none => exact ih
    | some x =>
      rw [replaceTrack_taken]
      by_cases hx : x.id = id <;> simpa [hx] using ih

/-- Every other id finds what it found. -/
theorem slotTrack_replace_other {i id : TrackId} (hi : i ≠ id) {o : Option Track} (ho : ∀ u ∈ o, u.id = id)
    (l : List (Option Track)) : slotTrack (replaceTrack l id o) i = slotTrack l i := by
  induction l with
  | nil => rfl
  | cons y l ih =>
    cases y with
    | none => exact ih
    | some x =>
      rw [replaceTrack_taken]
      by_cases hx : x.id = id
      · rw [if_pos hx, slotTrack_taken, if_neg (hx ▸ hi.symm)]
        cases o with
        | none => exact ih
        | some u =>
          rw [slotTrack_taken, if_neg (ho u rfl ▸ hi.symm)]
          exact ih
      · simp only [hx, if_false, slotTrack_taken, ih]

theorem none_mem_remove {l : List (Option Track)} {t : Track} (h : some t ∈ l) :
    none ∈ replaceTrack l t.id none :=
  List.mem_map.2 ⟨some t, h, by simp⟩

/-! #### Confirmation (R72) -/

theorem confirms_iff (m : Memory) (l : List Sighting) :
    confirms m l = true ↔ (site m).confirmCount ≤ l.countP (·.trusted) ∨
      ∃ x ∈ l, ∃ d, x.trusted = true ∧ rankOf m x.station = some 0 ∧ x.dust = some d ∧ (site m).pileDust ≤ d := by
  unfold confirms
  simp only [Bool.or_eq_true, decide_eq_true_eq, List.any_eq_true, Bool.and_eq_true]
  refine or_congr_right (exists_congr fun x => and_congr_right fun _ => ?_)
  cases x.dust <;> simp [and_assoc]

/-- Settles O36: completion keeps a confirmed mark and else sets it by the rule. -/
theorem confirmationRule : Obligations.ConfirmationRule := fun m t => by
  rw [(t.complete_frame m).2, Bool.or_eq_true, confirms_iff]

/-! #### Deadlines (R73, R74) -/

theorem exec_fadeDeadline {s : State} (h : s.pins.rstLow = false) (id : TrackId) :
    exec (.fadeDeadline id) s = .next ((s.takeEvent fun e => decide (e = .fadeDeadline id)).fadeTrack id) :=
  congrArg _ (State.unlessHeld_high (s := s.takeEvent _) h _)

theorem exec_closeDeadline {s : State} (h : s.pins.rstLow = false) (id : TrackId) :
    exec (.closeDeadline id) s = .next ((s.takeEvent fun e => decide (e = .closeDeadline id)).closeTrack id) :=
  congrArg _ (State.unlessHeld_high (s := s.takeEvent _) h _)

theorem Track.fadeDue_iff {t : Track} {now : Time} :
    t.fadeDue now = true ↔ t.state ≠ .fading ∧ reached now t.fade = true := by
  simp [Track.fadeDue]

theorem Track.closeDue_iff {t : Track} {now : Time} :
    t.closeDue now = true ↔ t.state = .fading ∧ ∃ d, t.close = some d ∧ reached now d = true := by
  unfold Track.closeDue
  cases t.close <;> simp

/-- R74: the removal of a track whose close deadline has passed, and nothing of another. -/
theorem State.closeTrack_due {s : State} {id : TrackId} {t : Track} (ht : s.trackOf id = some t)
    (hd : t.closeDue s.prt.time = true) : s.closeTrack id =
      { s with tracks := replaceTrack s.tracks id none, raised := s.raised ++ [.evaluation] } := by
  simp [State.closeTrack, ht, hd, State.setTracks, State.raise]

theorem State.closeTrack_kept {s : State} {id : TrackId} {t : Track} (ht : s.trackOf id = some t)
    (hd : t.closeDue s.prt.time = false) : s.closeTrack id = s := by
  simp [State.closeTrack, ht, hd]

/-- Settles O38: the fade and the removal, each where its deadline has passed and where it has not. -/
theorem deadlinesTaken : Obligations.DeadlinesTaken := by
  intro s id t hhigh hinv ht
  obtain ⟨hmem, hid⟩ := State.trackOf_some ht
  have hslot : slotTrack s.tracks id = some t := s.trackOf_eq_slotTrack id ▸ ht
  refine ⟨⟨_, exec_fadeDeadline hhigh id, ?_, ?_⟩, ⟨_, exec_closeDeadline hhigh id, ?_, ?_⟩⟩
  · intro hdue
    obtain ⟨hno, -⟩ | ⟨u, hu, -, h⟩ := (s.takeEvent fun e => decide (e = .fadeDeadline id)).fadeTrack_cases id
    · exact absurd (Track.fadeDue_iff.2 hdue) (by simpa using hno t ht)
    · obtain rfl : u = t := Option.some.inj (hu.symm.trans ht)
      rw [h]
      refine ⟨rfl, ?_, fun i hi => ?_⟩
      · rw [State.trackOf_eq_slotTrack]
        exact slotTrack_replace_same hslot hid
      · rw [State.trackOf_eq_slotTrack, State.trackOf_eq_slotTrack]
        exact slotTrack_replace_other hi (fun v hv => by obtain rfl := Option.some.inj hv; exact hid) _
  · intro hdue
    obtain ⟨-, h⟩ | ⟨u, hu, hd, -⟩ := (s.takeEvent fun e => decide (e = .fadeDeadline id)).fadeTrack_cases id
    · exact h
    · obtain rfl : u = t := Option.some.inj (hu.symm.trans ht)
      exact absurd (Track.fadeDue_iff.1 hd) hdue
  · intro d hfading hclose hreached
    rw [State.closeTrack_due (s := s.takeEvent _) ht (Track.closeDue_iff.2 ⟨hfading, d, hclose, hreached⟩)]
    refine ⟨rfl, ?_, ?_, fun i hi => ?_⟩
    · rw [State.trackOf_eq_slotTrack]
      exact slotTrack_remove_same _ _
    · exact hid ▸ none_mem_remove (mem_liveTracks.1 hmem)
    · rw [State.trackOf_eq_slotTrack, State.trackOf_eq_slotTrack]
      exact slotTrack_replace_other hi (o := none) nofun _
  · intro hclose
    refine State.closeTrack_kept (s := s.takeEvent _) ht (Bool.eq_false_iff.2 fun hdue => ?_)
    obtain ⟨-, d, hd, hr⟩ := Track.closeDue_iff.1 hdue
    exact absurd (hclose d hd) (by simpa using hr)

end Sys2Proof.Machine

/-! ### Sensor front end: the ranges that every step keeps (R20–R36) -/

namespace Sys2Proof.Machine

/-- The ranges of `SensorInv`, of SFE alone. -/
structure SfeOk (f : Sfe) : Prop where
  anemoCount : f.anemoCount ≤ 255
  dustCount : f.dustCount ≤ 255
  warming : f.warming ≤ Config.anemoWindow
  window : f.anemoWindow.length = f.warming
  mean : f.s60.isSome = true ↔ f.warming = Config.anemoWindow
  gust : f.g3 ≤ 600
  meanRange : ∀ v, f.s60 = some v → v ≤ 600
  raw : f.raw ≤ 15
  accepted : f.accepted ≤ 15
  candidate : ∀ v, f.candidate = some v → v ≤ 15
  run : f.run ≤ 3
  vaneRecord : f.vaneRecord.length ≤ Config.vaneWindow
  dustWindow : f.dustWindow.length ≤ Config.dustWindow
  dustNumber : f.dustNumber ≤ 1023
  lampLow : f.lampLow ≤ Config.lampLowCount
  silentRun : f.silentRun ≤ Config.silentCount

theorem sensorInv_iff {s : State} : SensorInv s ↔ SfeOk s.sfe := by
  constructor
  · rintro ⟨h1, h2, h3, h4, h5, h6, h7, h8, h9, h10, h11, h12, h13, h14, h15, h16⟩
    exact ⟨h1, h2, h3, h4, h5, h6, h7, h8, h9, h10, h11, h12, h13, h14, h15, h16⟩
  · rintro ⟨h1, h2, h3, h4, h5, h6, h7, h8, h9, h10, h11, h12, h13, h14, h15, h16⟩
    exact ⟨h1, h2, h3, h4, h5, h6, h7, h8, h9, h10, h11, h12, h13, h14, h15, h16⟩

theorem SfeOk.fresh (suppr ack : Bool) : SfeOk (Sfe.fresh suppr ack) where
  anemoCount := Nat.zero_le _
  dustCount := Nat.zero_le _
  warming := Nat.zero_le _
  window := rfl
  mean := iff_of_false Bool.false_ne_true nofun
  gust := Nat.zero_le _
  meanRange := nofun
  raw := Nat.zero_le _
  accepted := Nat.zero_le _
  candidate := nofun
  run := Nat.zero_le _
  vaneRecord := Nat.zero_le _
  dustWindow := Nat.zero_le _
  dustNumber := Nat.zero_le _
  lampLow := Nat.zero_le _
  silentRun := Nat.zero_le _

/-! #### The parts of a sample -/

theorem newest_length {α : Type} (n : Nat) (l : List α) : (newest n l).length = min l.length n := by
  rw [newest, List.length_drop]
  omega

theorem SfeOk.sampleAnemo {f : Sfe} (h : SfeOk f) (factor : Nat) : SfeOk (f.sampleAnemo factor) := by
  unfold Sfe.sampleAnemo
  split
  · exact {
      anemoCount := Nat.zero_le _
      dustCount := h.dustCount
      warming := Nat.min_le_right _ _
      window := by simp only [newest_length, List.length_append, List.length_singleton, h.window]
      mean := by simp only; split <;> simp [*]
      gust := Nat.min_le_right _ _
      meanRange := fun v hv => by
        simp only at hv
        split at hv
        · obtain rfl := Option.some.inj hv
          exact Nat.min_le_right _ _
        · cases hv
      raw := h.raw
      accepted := h.accepted
      candidate := h.candidate
      run := h.run
      vaneRecord := h.vaneRecord
      dustWindow := h.dustWindow
      dustNumber := h.dustNumber
      lampLow := h.lampLow
      silentRun := h.silentRun }
  · exact { h with anemoCount := Nat.zero_le _ }

theorem SfeOk.acceptSector {f : Sfe} (h : SfeOk f) {raw : Nat} (hr : raw ≤ 15) : SfeOk (f.acceptSector raw) := by
  have hcand : ∀ v, some raw = some v → v ≤ 15 := fun v hv => Option.some.inj hv ▸ hr
  unfold Sfe.acceptSector
  split
  · exact { h with accepted := hr, run := Nat.zero_le _ }
  · split
    · exact { h with run := Nat.zero_le _ }
    · simp only
      generalize (if f.candidate = some raw then f.run + 1 else 1) = run
      split
      · exact { h with accepted := hr, candidate := hcand, run := Nat.zero_le _ }
      · exact { h with candidate := hcand, run := by simp only; omega }

theorem SfeOk.sampleVane {f : Sfe} (h : SfeOk f) {raw : Nat} (hr : raw ≤ 15) : SfeOk (f.sampleVane raw) := by
  unfold Sfe.sampleVane
  split
  · exact { h.acceptSector hr with
      raw := hr
      vaneRecord := by
        simp only [newest_length]
        exact Nat.min_le_right _ _ }
  · exact h

theorem SfeOk.sampleLamp {f : Sfe} (h : SfeOk f) (lamp : Bool) : SfeOk (f.sampleLamp lamp) := by
  unfold Sfe.sampleLamp
  split
  · exact { h with
      lampLow := by
        simp only
        split
        · exact Nat.zero_le _
        · exact Nat.min_le_right _ _ }
  · exact h

theorem SfeOk.sampleDust {f : Sfe} (h : SfeOk f) (factor : Nat) : SfeOk (f.sampleDust factor) := by
  unfold Sfe.sampleDust
  split
  · exact { h with
      dustCount := Nat.zero_le _
      dustWindow := by
        simp only [newest_length]
        exact Nat.min_le_right _ _
      dustNumber := Nat.min_le_right _ _ }
  · exact { h with dustCount := Nat.zero_le _ }

theorem SfeOk.sampleSuppr {f : Sfe} (h : SfeOk f) (active : Bool) : SfeOk (f.sampleSuppr active) := by
  unfold Sfe.sampleSuppr
  split
  · exact { h with }
  · exact h

theorem SfeOk.sampleSilent {f : Sfe} (h : SfeOk f) (median : Option Nat) : SfeOk (f.sampleSilent median) := by
  unfold Sfe.sampleSilent
  split
  · split
    · split
      · exact { h with silentRun := Nat.min_le_right _ _ }
      · exact { h with silentRun := Nat.zero_le _ }
    · exact { h with silentRun := Nat.zero_le _ }
  · exact h

theorem grayDecode_le (v : BitVec 4) : grayDecode v ≤ 15 := by
  revert v
  decide

theorem SfeOk.sampleSfe {s : State} (h : SfeOk s.sfe) (vane : BitVec 4) (lamp : Bool) :
    SfeOk (s.sampleSfe vane lamp) :=
  { (((((h.sampleAnemo s.ownRec.speedFactor).sampleVane (grayDecode_le vane)).sampleLamp lamp).sampleDust
      s.ownRec.dustFactor).sampleSuppr s.ownRec.supprHigh).sampleSilent s.peerMedian with }

/-! #### Pulses, lines and channel service -/

theorem SfeOk.pulse {f : Sfe} (h : SfeOk f) (line : PulseLine) : SfeOk (f.pulse line) := by
  unfold Sfe.pulse
  split
  · split
    · exact { h with anemoCount := Nat.min_le_right _ _ }
    · exact h
  · split
    · exact { h with dustCount := Nat.min_le_right _ _ }
    · exact h

theorem SfeOk.supprChange {f : Sfe} (h : SfeOk f) (level active : Bool) : SfeOk (f.supprChange level active) := by
  unfold Sfe.supprChange
  split
  · exact { h with }
  · exact h

theorem SfeOk.setAckPending {s : State} (h : SfeOk s.sfe) : SfeOk s.setAckPending.sfe := by
  rw [State.setAckPending_sfe]
  exact { h with }

theorem SfeOk.ackChange {s : State} (h : SfeOk s.sfe) (level : Bool) : SfeOk (s.ackChange level).sfe := by
  unfold State.ackChange
  have h1 : SfeOk (s.mapSfe fun f => { f with ackLevel := level, ackFilter := 0 }).sfe := { h with }
  split
  · simp only
    split
    · exact h1.setAckPending
    · exact h1
  · exact h

theorem SfeOk.takeOut {f : Sfe} (h : SfeOk f) (c : Channel) (lamp : Bool) : SfeOk (f.takeOut c lamp) := by
  unfold Sfe.takeOut
  split
  · split <;> exact { h with }
  · exact h

theorem SfeOk.bringIn {f : Sfe} (h : SfeOk f) (c : Channel) (pins : Pins) (active : Bool) :
    SfeOk (f.bringIn c pins active) := by
  unfold Sfe.bringIn
  split
  · exact h
  · split
    · exact { h with
        warming := Nat.zero_le _, window := rfl, mean := iff_of_false Bool.false_ne_true nofun, gust := Nat.zero_le _, meanRange := nofun
        silentRun := Nat.zero_le _ }
    · exact { h with candidate := nofun, run := Nat.zero_le _, vaneRecord := Nat.zero_le _ }
    · exact { h with }
    · exact { h with }
    · exact { h with }
    · exact { h with
        lampLow := by
          simp only
          split_ifs
          · exact Nat.zero_le _
          · exact le_rfl
          · exact Nat.zero_le _ }

theorem SfeOk.served {f g : Sfe} (h : SfeOk f) (hg : Served f g) : SfeOk g := by
  obtain rfl | ⟨c, lamp, rfl⟩ | ⟨c, pins, active, pending, rfl⟩ := hg
  · exact h
  · exact h.takeOut c lamp
  · exact { h.bringIn c pins active with }

theorem SfeOk.restarted (f : Sfe) (pins : Pins) : SfeOk (f.restarted pins) :=
  { SfeOk.fresh (if f.supprIn then f.supprLevel else pins.suppr) (if f.ackIn then f.ackLevel else pins.ack) with }

/-! #### Every step -/

theorem OnlySlots.sfe {s t : State} (h : OnlySlots s t) : t.sfe = s.sfe := by rw [h]
theorem OnlyFaults.sfe {s t : State} (h : OnlyFaults s t) : t.sfe = s.sfe := by rw [h]
theorem OnlyReceives.sfe {s t : State} (h : OnlyReceives s t) : t.sfe = s.sfe := by rw [h]
theorem OnlyEvaluates.sfe {s t : State} (h : OnlyEvaluates s t) : t.sfe = s.sfe := by rw [h]
theorem OnlyRewrites.sfe {s t : State} (h : OnlyRewrites s t) : t.sfe = s.sfe := by rw [h]
theorem OnlyCounts.sfe {s t : State} (h : OnlyCounts s t) : t.sfe = s.sfe := by rw [h]
theorem OnlyBoundary.sfe {s t : State} (h : OnlyBoundary s t) : t.sfe = s.sfe := by rw [h]

/-- R53–R55: of SFE a sample of GDU changes the latch alone. -/
theorem OnlyDetects.sfe {s t : State} (h : OnlyDetects s t) : t.sfe = { s.sfe with latch := t.sfe.latch } :=
  congrArg State.sfe h

theorem SfeOk.sample {s : State} (h : SfeOk s.sfe) (vane : BitVec 4) (lamp : Bool) : SfeOk (s.sample vane lamp).sfe := by
  have hs := h.sampleSfe vane lamp
  rw [State.sample_eq, (State.gduSample_only _ _).sfe,
    ((s.sampled vane lamp).sampleFaults_only s.sfe (s.sampleSfe vane lamp)).sfe]
  exact { hs with }

theorem SfeOk.ackEvaluation {s : State} (h : SfeOk s.sfe) : SfeOk s.ackEvaluation.sfe := by
  unfold State.ackEvaluation
  split
  · change SfeOk (State.evaluate _).sfe
    rw [(State.evaluate_only _).sfe]
    exact { h with }
  · exact h

theorem State.after_sfeOk (c : Instr) {s : State} (h : SfeOk s.sfe) : SfeOk (s.after c).sfe := by
  have claim : ∀ {f : State → State}, SfeOk (f s).sfe → SfeOk (s.unlessHeld f).sfe :=
    fun hf => State.unlessHeld_cases (P := fun t => SfeOk t.sfe) h fun _ => hf
  have claimed : ∀ {f : State → State} (p : Instr → Bool), (∀ u, SfeOk u.sfe → SfeOk (f u).sfe) →
      SfeOk ((s.takeEvent p).unlessHeld f).sfe := fun p hf =>
    State.unlessHeld_cases (P := fun t => SfeOk t.sfe) h fun _ => hf (s.takeEvent p) h
  cases hc : ofSetup c
  · cases c with
    | powerOn sn suppr ack => exact .fresh _ _
    | lineReset sn suppr ack => exact .fresh _ _
    | rstAssert => exact h
    | sampleEvent vane lamp => exact claimed _ fun u hu => hu.sample vane lamp
    | pulseEdge line => exact claim (f := fun s => s.mapSfe fun f => f.pulse line) (h.pulse line)
    | supprTransition level =>
      exact claimed (f := fun s => { s with
        pins := { s.pins with suppr := level }, sfe := s.sfe.supprChange level s.ownRec.supprHigh }) _
        fun _ hu => hu.supprChange _ _
    | ackTransition level =>
      exact claimed (f := fun s => ({ s with pins := { s.pins with ack := level } } : State).ackChange level) _
        fun u hu => SfeOk.ackChange (s := { u with pins := { u.pins with ack := level } }) hu level
    | lineBusy => exact claim (s.lineBusy_only.sfe ▸ h)
    | lineIdle => exact claimed _ fun u hu => u.lineIdle_only.sfe ▸ hu
    | holdoffExpiry quiet => exact claimed _ fun u hu => (u.holdoffExpiry_only quiet).sfe ▸ hu
    | transmitSuccess => exact claim (s.transmitSuccess_only.sfe ▸ h)
    | collision => exact claim (s.collision_only.sfe ▸ h)
    | frameReceived chars => exact claim (f := fun s => s.frameReceived chars) ((s.frameReceived_only chars).sfe ▸ h)
    | preCheck id => exact claimed _ fun u hu => (u.preCheck_only id).sfe ▸ hu
    | fadeDeadline id => exact claimed _ fun u hu => (u.fadeTrack_only id).sfe ▸ hu
    | closeDeadline id => exact claimed _ fun u hu => (u.closeTrack_only id).sfe ▸ hu
    | silenceDeadline n => exact claimed _ fun u hu => (u.silence_counts n).sfe ▸ hu
    | tick => exact claimed _ fun u hu => u.evaluate_only.sfe ▸ hu
    | evaluation => exact claimed _ fun u hu => u.evaluate_only.sfe ▸ hu
    | ackEvaluation => exact claimed _ fun _ hu => hu.ackEvaluation
    | epochBoundary => exact claimed _ fun u hu => u.boundaryTaken_only.sfe ▸ hu
    | slewStep => exact s.slewStep_only.sfe ▸ h
    | trimStep => exact s.trimStep_only.sfe ▸ h
    | schedulePoint => exact claimed _ fun u hu => u.schedulePoint_only.sfe ▸ hu
    | _ => cases hc
  · obtain ⟨-, -, hserved⟩ | ⟨-, hsame | hrestarted⟩ := State.after_setUp hc s
    · exact h.served hserved
    · exact hsame ▸ h
    · exact hrestarted ▸ .restarted _ _

/-- R19, R26: the filters and the sample period in a millisecond. -/
theorem SfeOk.inputsMs {s : State} (h : SfeOk s.sfe) : SfeOk s.inputsMs.sfe := by
  have hsuppr : ∀ u : State, SfeOk u.sfe → SfeOk u.supprMs.sfe := fun u hu => by
    unfold State.supprMs
    simp only
    split <;> exact { hu with }
  have hack : ∀ u : State, SfeOk u.sfe → SfeOk u.ackMs.sfe := fun u hu => by
    unfold State.ackMs
    simp only
    split <;> exact { hu with }
  have hwindow : ∀ u : State, u.windowMs.sselMs.sfe = u.sfe := fun u => by
    unfold State.windowMs State.sselMs
    split
    · split <;> rfl
    · split <;> split <;> rfl
  have hsample : ∀ u : State, SfeOk u.sfe → SfeOk u.sampleMs.sfe := fun u hu => by
    unfold State.sampleMs
    split <;> exact { hu with }
  refine hsample _ ?_
  rw [hwindow]
  exact hack _ (hsuppr _ h)

theorem SfeOk.millisecond {s : State} (h : SfeOk s.sfe) : SfeOk s.millisecond.sfe := by
  have hclock : SfeOk s.clockMs.sfe := s.clockMs_only.sfe ▸ h
  rw [State.millisecond_eq]
  exact State.unlessHeld_cases (P := fun t => SfeOk t.sfe) hclock fun _ =>
    SfeOk.inputsMs (s.clockMs.quietMs_only.sfe ▸ hclock)

end Sys2Proof.Machine

/-! ### Roster and common time: the ranges that every step keeps (R158–R170), and SILENCE (O53) -/

namespace Sys2Proof.Machine

/-! #### The roster -/

/-- What a roster entry reads as is decided by the roster and the tables alone. -/
theorem State.rosterOf_congr {s t : State} (hr : t.prt.roster = s.prt.roster) (ht : t.tables = s.tables) (n : Nat) :
    t.rosterOf n = s.rosterOf n := by
  unfold State.rosterOf
  rw [hr, ht]

theorem State.rosterOf_some {s : State} {n : Nat} {e : RosterEntry} (h : s.rosterOf n = some e) :
    n ≠ 0 ∧ ∃ e0, s.prt.roster[n - 1]? = some e0 ∧ e = e0.asListed (stationPresent s.tables n) := by
  unfold State.rosterOf at h
  split at h
  · cases h
  · next hn =>
    obtain ⟨e0, he0, rfl⟩ := Option.map_eq_some_iff.1 h
    exact ⟨hn, e0, he0, rfl⟩

/-- The entry written is read back, as the station table lets it. -/
theorem State.rosterOf_setRoster_same {s : State} {n : Nat} {old : RosterEntry} (h : s.rosterOf n = some old)
    (e : RosterEntry) : (s.setRoster n e).rosterOf n = some (e.asListed (stationPresent s.tables n)) := by
  obtain ⟨hn, e0, he0, -⟩ := State.rosterOf_some h
  have hlt := (List.getElem?_eq_some_iff.1 he0).1
  simp [State.rosterOf, hn, hlt]

theorem State.rosterOf_setRoster_other {s : State} {n k : Nat} (hn : n ≠ 0) (hk : k ≠ n) (e : RosterEntry) :
    (s.setRoster n e).rosterOf k = s.rosterOf k := by
  unfold State.rosterOf
  split
  · rfl
  · next hk0 =>
    have hne : n - 1 ≠ k - 1 := by omega
    simp [hne]

/-- R163: a change of an entry is the entry written, and at most an evaluation raised. -/
theorem State.writeRoster_eq (s : State) (n : Nat) (old new : RosterEntry) :
    s.writeRoster n old new = { s.setRoster n new with
      raised := s.raised ++ if old.state ≠ new.state ∧ s.ownsSource n = true then [.evaluation] else [] } := by
  have howns : (s.setRoster n new).ownsSource n = s.ownsSource n := rfl
  unfold State.writeRoster State.rosterChanged
  simp only [howns]
  by_cases hsame : old.state = new.state
  · simp [hsame, State.mapPrt]
  · cases s.ownsSource n <;> simp [hsame, State.raise, State.mapPrt]

theorem State.rosterOf_writeRoster_same {s : State} {n : Nat} {e old : RosterEntry} (h : s.rosterOf n = some e)
    (new : RosterEntry) :
    (s.writeRoster n old new).rosterOf n = some (new.asListed (stationPresent s.tables n)) := by
  rw [State.writeRoster_eq]
  exact State.rosterOf_setRoster_same h new

theorem State.rosterOf_writeRoster_other {s : State} {n k : Nat} (hn : n ≠ 0) (hk : k ≠ n) (old new : RosterEntry) :
    (s.writeRoster n old new).rosterOf k = s.rosterOf k := by
  rw [State.writeRoster_eq]
  exact State.rosterOf_setRoster_other hn hk new

/-- An entry that is SELF, or of a listed station, reads as it is held. -/
theorem RosterEntry.asListed_listed (e : RosterEntry) : e.asListed true = e := by simp [RosterEntry.asListed]

/-- R4, R159: an entry that does not read ABSENT reads as it is held. -/
theorem RosterEntry.asListed_of_ne_absent {listed : Bool} {e : RosterEntry}
    (h : (e.asListed listed).state ≠ .absent) : listed = true ∨ e.state = .self := by
  unfold RosterEntry.asListed at h
  split at h
  · next hl => simpa using hl
  · exact absurd rfl h

/-- R162: an entry that is due to fall SILENT is of a listed station or SELF, and reads back SILENT. -/
theorem RosterEntry.silenceDue_iff {e : RosterEntry} {now : Time} :
    e.silenceDue now = true ↔ (e.state = .present ∨ e.state = .mismatch) ∧ ∃ d, e.deadline = some d ∧ reached now d = true := by
  unfold RosterEntry.silenceDue
  cases e.deadline <;> simp

theorem State.silence_due {s : State} {n : Nat} {e : RosterEntry} (h : s.rosterOf n = some e)
    (hd : e.silenceDue s.prt.time = true) :
    s.silence n = { s.setRoster n { e with state := .silent, deadline := none } with
      raised := s.raised ++ if s.ownsSource n then [.evaluation] else [] } ∧
    (s.silence n).rosterOf n = some { e with state := .silent, deadline := none } ∧
    ∀ k, k ≠ n → (s.silence n).rosterOf k = s.rosterOf k := by
  have heq : s.silence n = s.writeRoster n e { e with state := .silent, deadline := none } := by
    simp [State.silence, h, hd]
  obtain ⟨hstate, -⟩ := RosterEntry.silenceDue_iff.1 hd
  obtain ⟨hn, e0, -, rfl⟩ := State.rosterOf_some h
  have hlisted : stationPresent s.tables n = true := by
    obtain hl | hself := RosterEntry.asListed_of_ne_absent (listed := stationPresent s.tables n) (e := e0)
      (by obtain hs | hs := hstate <;> simp [hs])
    · exact hl
    · simp [RosterEntry.asListed, hself] at hstate
  refine ⟨?_, ?_, fun k hk => ?_⟩
  · rw [heq, State.writeRoster_eq]
    have hne : (e0.asListed (stationPresent s.tables n)).state ≠ .silent := by
      obtain hs | hs := hstate <;> simp [hs]
    simp [hne]
  · rw [heq, State.rosterOf_writeRoster_same h, hlisted]
    rfl
  · rw [heq, State.rosterOf_writeRoster_other hn hk]

theorem State.silence_kept {s : State} {n : Nat} {e : RosterEntry} (h : s.rosterOf n = some e)
    (hd : e.silenceDue s.prt.time = false) : s.silence n = s := by
  simp [State.silence, h, hd]

theorem exec_silenceDeadline {s : State} (h : s.pins.rstLow = false) (n : Nat) :
    exec (.silenceDeadline n) s =
      .next ((s.takeEvent fun e => decide (e = .silenceDeadline n)).silence n) :=
  congrArg _ (State.unlessHeld_high (s := s.takeEvent _) h _)

/-- Settles O53: the entry whose deadline has passed, and one whose deadline has not. -/
theorem silenceTaken : Obligations.SilenceTaken := by
  intro s n e hhigh he
  rw [exec_silenceDeadline hhigh n]
  refine ⟨fun d hstate hd hr => ?_, fun hnot => ?_⟩
  · have hdue : e.silenceDue s.prt.time = true := RosterEntry.silenceDue_iff.2 ⟨hstate, d, hd, hr⟩
    obtain ⟨heq, hsame, hother⟩ := State.silence_due (s := s.takeEvent _) he hdue
    refine ⟨_, rfl, hsame, hother, ?_⟩
    rw [heq, show ∀ p, (s.takeEvent p).ownsSource n = s.ownsSource n from fun _ => rfl]
    split
    · rfl
    · rw [List.append_nil]
      rfl
  · congr 1
    refine State.silence_kept (s := s.takeEvent _) he (Bool.eq_false_iff.2 fun hdue => ?_)
    obtain ⟨-, d, hd, hr⟩ := RosterEntry.silenceDue_iff.1 hdue
    exact absurd (hnot d hd) (by simpa using hr)

end Sys2Proof.Machine

/-! ### Roster and common time: every step keeps their ranges (R158–R170) -/

namespace Sys2Proof.Machine

/-! #### Roster entries -/

/-- R158, R159: a roster of the station `own`. -/
def RosterGood (own : Nat) (r : List RosterEntry) : Prop :=
  1 ≤ own ∧ own ≤ 32 ∧ r.length = 32 ∧ ∀ k, ∀ e, r[k]? = some e → RosterEntryOk own (k + 1) e

theorem timeInv_iff {s : State} : TimeInv s ↔ RosterGood s.scs.own s.prt.roster ∧ TimeOk s.prt := Iff.rfl

theorem RosterGood.cleared {own : Nat} (h1 : 1 ≤ own) (h2 : own ≤ 32) : RosterGood own (clearedRoster own) := by
  refine ⟨h1, h2, by simp [clearedRoster], fun k e he => ?_⟩
  simp only [clearedRoster, List.getElem?_map, Option.map_eq_some_iff] at he
  obtain ⟨j, hj, rfl⟩ := he
  rw [List.getElem?_eq_some_iff] at hj
  obtain ⟨-, rfl⟩ := hj
  rw [List.getElem_range]
  constructor
  · by_cases h : k + 1 = own <;> simp [RosterEntry.cleared, h]
  · by_cases h : k + 1 = own <;> simp [RosterEntry.cleared, h]

theorem RosterGood.set {own n : Nat} {r : List RosterEntry} (h : RosterGood own r) (hn : n ≠ 0) {e : RosterEntry}
    (he : RosterEntryOk own n e) : RosterGood own (r.set (n - 1) e) := by
  obtain ⟨h1, h2, h3, h4⟩ := h
  refine ⟨h1, h2, by simpa using h3, fun k x hx => ?_⟩
  rw [List.getElem?_set] at hx
  split at hx
  · next hk =>
    split at hx
    · obtain rfl := Option.some.inj hx
      rwa [show k + 1 = n by omega]
    · cases hx
  · exact h4 k x hx

/-- R158: an entry that does not read SELF is not the station's own. -/
theorem RosterGood.ne_own {s : State} (h : RosterGood s.scs.own s.prt.roster) {n : Nat} {e : RosterEntry}
    (he : s.rosterOf n = some e) (hs : e.state ≠ .self) : n ≠ s.scs.own := by
  obtain ⟨hn, e0, he0, rfl⟩ := State.rosterOf_some he
  have hok := (h.2.2.2 _ _ he0).1
  rw [show n - 1 + 1 = n by omega] at hok
  intro hown
  have hself := hok.2 hown
  exact hs (by simp [RosterEntry.asListed, hself])

/-- What is written of another station's entry: a state that is not SELF, with a silence deadline exactly where it
is PRESENT or MISMATCH. -/
theorem RosterGood.writeRoster {s : State} (h : RosterGood s.scs.own s.prt.roster) {n : Nat} {e new : RosterEntry}
    (he : s.rosterOf n = some e) (hs : e.state ≠ .self) (hnew : new.state ≠ .self)
    (hd : new.deadline.isSome = true ↔ new.state = .present ∨ new.state = .mismatch) :
    RosterGood (s.writeRoster n e new).scs.own (s.writeRoster n e new).prt.roster := by
  rw [State.writeRoster_eq]
  exact h.set (State.rosterOf_some he).1 ⟨iff_of_false hnew (h.ne_own he hs), hd⟩

/-! #### What keeps roster and time state -/

theorem TimeInv.of_prt {s t : State} (h : TimeInv s) (hprt : t.prt = s.prt) (hown : t.scs.own = s.scs.own) :
    TimeInv t := by
  rw [timeInv_iff, hprt, hown]
  exact h

theorem OnlyWorks.own {s t : State} (h : OnlyWorks s t) : t.scs.own = s.scs.own := by rw [h]
theorem OnlyBoundary.own {s t : State} (h : OnlyBoundary s t) : t.scs.own = s.scs.own := by rw [h]

theorem State.writeRoster_frame (s : State) (n : Nat) (old new : RosterEntry) :
    (s.writeRoster n old new).prt = { s.prt with roster := (s.writeRoster n old new).prt.roster } ∧
      (s.writeRoster n old new).scs = s.scs := by
  rw [State.writeRoster_eq]
  exact ⟨rfl, rfl⟩

/-- An entry written, the other fields of common time kept. -/
theorem TimeInv.writeRoster {s : State} (h : TimeInv s) {n : Nat} {e new : RosterEntry} (he : s.rosterOf n = some e)
    (hs : e.state ≠ .self) (hnew : new.state ≠ .self)
    (hd : new.deadline.isSome = true ↔ new.state = .present ∨ new.state = .mismatch) :
    TimeInv (s.writeRoster n e new) := by
  refine timeInv_iff.2 ⟨RosterGood.writeRoster h.1 he hs hnew hd, ?_⟩
  rw [(s.writeRoster_frame n e new).1]
  exact h.2

theorem TimeInv.silence {s : State} (h : TimeInv s) (n : Nat) : TimeInv (s.silence n) := by
  unfold State.silence
  split
  · exact h
  · next e he =>
    split
    · next hdue =>
      refine h.writeRoster he (fun hself => ?_) nofun (by simp)
      obtain hs | hs := (RosterEntry.silenceDue_iff.1 hdue).1 <;> rw [hs] at hself <;> cases hself
    · exact h

theorem TimeInv.passDeadlines {s : State} (h : TimeInv s) : TimeInv s.passDeadlines := by
  have hs : ∀ (l : List Nat) (u : State), TimeInv u → TimeInv (l.foldl (fun s k => s.silence (k + 1)) u) := by
    intro l
    induction l with
    | nil => exact fun _ hu => hu
    | cons k l ih => exact fun u hu => ih _ (hu.silence _)
  exact hs _ s.passTrackDeadlines (h.of_prt rfl rfl)

/-! #### Common time -/

/-- Time, withholds and phases are free of ranges. -/
theorem TimeInv.mapPrt {s : State} (h : TimeInv s) {f : Prt → Prt} (hf : f s.prt = { f s.prt with
    trim := s.prt.trim, slew := s.prt.slew, lock := s.prt.lock, lockCount := s.prt.lockCount
    offsets := s.prt.offsets, roster := s.prt.roster }) : TimeInv (s.mapPrt f) := by
  rw [timeInv_iff, State.mapPrt_prt, hf]
  exact h

theorem TimeInv.count {s : State} (h : TimeInv s) : TimeInv s.count := by
  have htime : TimeInv (s.mapPrt fun p => { p with time := p.time + 1 }) := h
  refine State.unlessHeld_cases htime fun _ => TimeInv.passDeadlines ?_
  rw [State.raiseAtCount_frame]
  exact htime

theorem TimeInv.gainOrWithhold {s : State} (h : TimeInv s) (gain : Bool) : TimeInv (s.gainOrWithhold gain) := by
  unfold State.gainOrWithhold
  split
  · exact h.count
  · exact h

theorem TimeInv.slewStep {s : State} (h : TimeInv s) : TimeInv s.slewStep := by
  unfold State.slewStep
  split
  · exact h
  · refine TimeInv.gainOrWithhold ?_ _
    obtain ⟨hr, h1, h2, h3, h4, h5⟩ := h
    by_cases hpos : 0 < s.prt.slew
    · simp only [hpos, decide_true, if_true]
      exact ⟨hr, h1, h2, by simp only [State.mapPrt_prt]; omega, by simp only [State.mapPrt_prt]; omega, h5⟩
    · simp only [hpos, decide_false, Bool.false_eq_true, if_false]
      exact ⟨hr, h1, h2, by simp only [State.mapPrt_prt]; omega, by simp only [State.mapPrt_prt]; omega, h5⟩

theorem TimeInv.trimStep {s : State} (h : TimeInv s) : TimeInv s.trimStep := by
  unfold State.trimStep
  split
  · exact h
  · exact TimeInv.gainOrWithhold (TimeInv.mapPrt h rfl) _

theorem TimeInv.clockMs {s : State} (h : TimeInv s) : TimeInv s.clockMs := by
  have hslew : TimeInv s.slewMs := by
    unfold State.slewMs
    split_ifs
    · exact h
    · exact h
    · exact h.slewStep
  have htrim : ∀ u : State, TimeInv u → TimeInv u.trimMs := fun u hu => by
    unfold State.trimMs
    split_ifs
    · exact hu
    · exact hu
    · exact hu.trimStep
  have hcount : ∀ u : State, TimeInv u → TimeInv u.countMs := fun u hu => by
    unfold State.countMs
    split
    · exact hu.count
    · exact hu
  exact hcount _ (htrim _ hslew)

theorem TimeInv.millisecond {s : State} (h : TimeInv s) : TimeInv s.millisecond := by
  rw [State.millisecond_eq]
  refine State.unlessHeld_cases h.clockMs fun _ => h.clockMs.of_prt ?_ ?_
  · rw [State.inputsMs_only]
    exact s.clockMs.quietMs_only.prt
  · rw [State.inputsMs_only]
    exact s.clockMs.quietMs_only.works.own

/-! #### The epoch boundary (R166–R170) -/

theorem adjustTrim_range {trim c : Int} (h1 : -64 ≤ trim) (h2 : trim ≤ 64) :
    -64 ≤ adjustTrim trim c ∧ adjustTrim trim c ≤ 64 := by
  have hmax : (Config.trimMax : Int) = 64 := rfl
  unfold adjustTrim
  rw [hmax]
  split_ifs <;> omega

theorem clampSlew_range (c : Int) : -8 ≤ clampSlew c ∧ clampSlew c ≤ 8 := by
  unfold clampSlew
  omega

/-- R170: the lock is LOCKED exactly at the count 3. -/
theorem lockAfter_range (count : Nat) (c : Option Int) :
    (lockAfter count c).2 ≤ 3 ∧ ((lockAfter count c).1 = .locked ↔ (lockAfter count c).2 = 3) := by
  unfold lockAfter
  split
  · simp
  · simp only
    split <;> split <;> simp_all

theorem TimeInv.stepTime {s : State} (h : TimeInv s) (c : Int) : TimeInv (s.stepTime c) := h

theorem OnlyFaults.own {s t : State} (h : OnlyFaults s t) : t.scs.own = s.scs.own := h.works.own

theorem TimeInv.slewTime {s : State} (h : TimeInv s) (c : Int) : TimeInv (s.slewTime c) := by
  have hslewed : ∀ trimPhase : Prt → Nat, TimeInv (s.mapPrt fun p => { p with
      slew := clampSlew c, slewPhase := 0, trim := adjustTrim s.prt.trim c, trimPhase := trimPhase p }) :=
    fun trimPhase => by
      obtain ⟨hr, h1, h2, -, -, h5⟩ := h
      exact ⟨hr, (adjustTrim_range h1 h2).1, (adjustTrim_range h1 h2).2, (clampSlew_range c).1,
        (clampSlew_range c).2, h5⟩
  unfold State.slewTime
  simp only
  split
  · exact (hslewed _).of_prt (State.faultEvent_only _ _).prt (State.faultEvent_only _ _).own
  · exact hslewed _

theorem TimeInv.corrected {s : State} (h : TimeInv s) : TimeInv s.corrected := by
  have hc : ∀ c : Int, TimeInv (s.mapPrt fun p => { p with lastCorr := some c }) := fun _ => h
  unfold State.corrected State.applyCorrection
  split
  · simp only
    split
    · exact (hc _).stepTime _
    · exact (hc _).slewTime _
  · exact h

theorem State.boundaryNotice_own (s : State) : s.boundaryNotice.scs.own = s.scs.own := s.boundaryNotice_only.own

theorem TimeInv.epochBoundary {s : State} (h : TimeInv s) : TimeInv s.epochBoundary := by
  obtain ⟨hr, h1, h2, h3, h4, -, -, -⟩ := h.corrected
  rw [State.epochBoundary_eq]
  refine TimeInv.of_prt (s := s.corrected.mapPrt _) ?_ (State.boundaryNotice_time _) (State.boundaryNotice_own _)
  exact ⟨hr, h1, h2, h3, h4, (lockAfter_range _ _).1, (lockAfter_range _ _).2, List.nodup_nil⟩

theorem TimeInv.boundaryTaken {s : State} (h : TimeInv s) : TimeInv s.boundaryTaken := by
  unfold State.boundaryTaken
  simp only
  split
  · exact h.epochBoundary
  · exact h.epochBoundary.passDeadlines

/-! #### Received frames (R160, R161, R165) -/

/-- R160: an entry that has been heard is PRESENT or MISMATCH, with its deadline. -/
theorem TimeInv.heard {s : State} (h : TimeInv s) (n : Nat) : TimeInv (s.heard n) := by
  unfold State.heard
  split
  · exact h
  · next e he =>
    split
    · exact h
    · next hs =>
      have hstate : heardState e.state = .present ∨ heardState e.state = .mismatch := by
        cases hcase : e.state <;> simp_all [heardState]
      refine h.writeRoster he hs ?_ ?_
      · obtain hp | hm := hstate
        · simp [hp]
        · simp [hm]
      · simpa using hstate

/-- R160: once a listed station has been heard, its entry has a silence deadline. -/
theorem State.heard_deadline {s : State} {n : Nat} (hl : stationPresent s.tables n = true) {e : RosterEntry}
    (he : (s.heard n).rosterOf n = some e) (hs : e.state ≠ .self) : e.deadline.isSome = true := by
  unfold State.heard at he
  split at he
  · next hnone =>
    rw [hnone] at he
    cases he
  · next old hold =>
    split at he
    · next hself =>
      rw [hold] at he
      obtain rfl := Option.some.inj he
      exact absurd hself hs
    · rw [State.rosterOf_writeRoster_same hold, hl, RosterEntry.asListed_listed] at he
      obtain rfl := Option.some.inj he
      rfl

theorem TimeInv.collect {s : State} (h : TimeInv s) (n : Nat) (offset : Int) (lock : Lock) :
    TimeInv (s.collect n offset lock) := by
  unfold State.collect
  split
  · obtain ⟨hr, h1, h2, h3, h4, h5, h6, h7⟩ := h
    refine ⟨hr, h1, h2, h3, h4, h5, h6, ?_⟩
    simp only [State.mapPrt_prt, List.map_append, List.map_cons, List.map_nil]
    refine List.nodup_append.2 ⟨h7.sublist (List.filter_sublist.map _), List.nodup_singleton _, ?_⟩
    rintro a ha b hb rfl
    obtain ⟨o, ho, rfl⟩ := List.mem_map.1 ha
    rw [List.mem_singleton] at hb
    simpa [hb] using (List.mem_filter.1 ho).2
  · exact h

theorem OnlyReports.prt {s t : State} (h : OnlyReports s t) : t.prt = s.prt := by rw [h]
theorem OnlyReports.own {s t : State} (h : OnlyReports s t) : t.scs.own = s.scs.own := by rw [h]

/-- R161: a PRESENCE taken of an entry that has been heard. -/
theorem TimeInv.takePresence {s : State} (h : TimeInv s) {n : Nat} (hd : ∀ e, s.rosterOf n = some e →
    e.state ≠ .self → e.deadline.isSome = true) (a : Announced) (stamp arrival : Time) :
    TimeInv (s.takePresence n a stamp arrival) := by
  unfold State.takePresence
  split
  · exact h
  · next e he =>
    split
    · exact h
    · next hs =>
      have hstate : (if a.checksum = s.scs.checksum then RosterState.present else .mismatch) = .present ∨
          (if a.checksum = s.scs.checksum then RosterState.present else .mismatch) = .mismatch := by
        split
        · exact .inl rfl
        · exact .inr rfl
      have hw : TimeInv (s.writeRoster n e { e with
          state := if a.checksum = s.scs.checksum then .present else .mismatch, announced := some a }) := by
        refine h.writeRoster he hs ?_ (iff_of_true (hd e he hs) hstate)
        obtain hp | hm := hstate
        · simp [hp]
        · simp [hm]
      have hc := hw.collect n (timeDiff stamp arrival) a.lock
      exact hc.of_prt (State.takePairs_only _ _ _).prt (State.takePairs_only _ _ _).own

theorem OnlySlots.own {s t : State} (h : OnlySlots s t) : t.scs.own = s.scs.own := by rw [h]

theorem TimeInv.dispatchSighting {s : State} (h : TimeInv s) (frame : List Byte) (sender : Nat)
    (p : SightingNotice) : TimeInv (s.dispatchSighting frame sender p) := by
  unfold State.dispatchSighting
  simp only
  generalize Request.mk _ _ _ _ _ = r
  have hs : TimeInv (s.admission r true).2 :=
    h.of_prt (s.admission_only r true).prt (s.admission_only r true).own
  generalize s.admission r true = a at hs
  obtain ⟨answer, u⟩ := a
  cases answer <;> exact hs

theorem TimeInv.dispatch {s : State} (h : TimeInv s) (k : FrameKind) (frame : List Byte) (arrival : Time)
    (hd : ∀ e, s.rosterOf (byteAt frame 2) = some e → e.state ≠ .self → e.deadline.isSome = true) :
    TimeInv (s.dispatch k frame arrival) := by
  unfold State.dispatch
  simp only
  split
  · split
    · exact h
    · exact h.takePresence hd _ _ _
  · split
    · exact h
    · split
      · exact h
      · exact h.dispatchSighting _ _ _
  · split
    · exact h
    · split_ifs
      · exact h
      · exact h
      · exact h
      · exact h.of_prt (s.takeReport_only _ _ _).prt (s.takeReport_only _ _ _).own

theorem TimeInv.checkSender {s : State} (h : TimeInv s) (k : FrameKind) (frame : List Byte) (arrival : Time) :
    TimeInv (s.checkSender k frame arrival) := by
  unfold State.checkSender
  simp only
  split
  · exact h
  · next hl =>
    have hl : stationPresent s.tables (byteAt frame 2) = true := by simpa using hl
    have hh := h.heard (byteAt frame 2)
    split_ifs
    · exact TimeInv.of_prt (s := (s.heard (byteAt frame 2)).reject 4 frame) hh (State.faultEvent_only _ _).prt
        (State.faultEvent_only _ _).own
    · exact hh
    · exact hh.dispatch k frame arrival fun e he hs => State.heard_deadline hl he hs

theorem TimeInv.endFrame {s : State} (h : TimeInv s) (r : RxFrame) : TimeInv (s.endFrame r) := by
  unfold State.endFrame State.receive
  split
  · exact h
  · simp only
    split
    · exact h
    · split
      · exact TimeInv.checkSender (s := (s.mapQlc fun q => { q with rx := none }).advanceRotation) h _ _ _
      · exact h

theorem TimeInv.frameReceived {s : State} (h : TimeInv s) (chars : List Byte) : TimeInv (s.frameReceived chars) := by
  unfold State.frameReceived
  split
  · unfold State.readChars
    simp only
    split_ifs
    · exact TimeInv.endFrame (s := s.charsRead) h _
    · exact h
    · exact h
  · exact h

theorem OnlyPosts.own {s t : State} (h : OnlyPosts s t) : t.scs.own = s.scs.own := congrArg Scs.own h.scs

theorem TimeInv.posts {s t : State} (h : TimeInv s) (ht : OnlyPosts s t) : TimeInv t := h.of_prt ht.prt ht.own

theorem TimeInv.lineIdle {s : State} (h : TimeInv s) : TimeInv s.lineIdle := by
  unfold State.lineIdle
  split
  · refine TimeInv.posts ?_ (State.follow_only _)
    have hstop := h.posts s.stopHoldoff_only
    change TimeInv s.stopHoldoff.endTruncated
    unfold State.endTruncated
    split
    · exact hstop.endFrame _
    · exact hstop
  · exact h

theorem TimeInv.collision {s : State} (h : TimeInv s) : TimeInv s.collision := by
  unfold State.collision
  split
  · exact h
  · next k _ =>
    have hc := h.of_prt (s.collided_only k).prt (s.collided_only k).own
    unfold State.endWhole
    split
    · split
      · exact hc.endFrame _
      · exact hc
    · exact hc

/-! #### Every command -/

theorem OnlySamples.prt {s t : State} (h : OnlySamples s t) : t.prt = s.prt := by rw [h]
theorem OnlySamples.own {s t : State} (h : OnlySamples s t) : t.scs.own = s.scs.own := by rw [h]
theorem OnlyEvaluates.prt {s t : State} (h : OnlyEvaluates s t) : t.prt = s.prt := by rw [h]
theorem OnlyEvaluates.own {s t : State} (h : OnlyEvaluates s t) : t.scs.own = s.scs.own := by rw [h]
theorem OnlyRewrites.prt {s t : State} (h : OnlyRewrites s t) : t.prt = s.prt := by rw [h]
theorem OnlyRewrites.own {s t : State} (h : OnlyRewrites s t) : t.scs.own = s.scs.own := by rw [h]

theorem ownNumber_range (sn : BitVec 5) : 1 ≤ ownNumber sn ∧ ownNumber sn ≤ 32 := by
  have := sn.isLt
  unfold ownNumber
  omega

theorem TimeOk.fresh (own : Nat) : TimeOk (Prt.fresh own) :=
  ⟨(by decide : (-64 : Int) ≤ 0), (by decide : (0 : Int) ≤ 64), (by decide : (-8 : Int) ≤ 0),
    (by decide : (0 : Int) ≤ 8), Nat.zero_le _, iff_of_false nofun nofun, List.nodup_nil⟩

theorem TimeInv.ackEvaluation {s : State} (h : TimeInv s) : TimeInv s.ackEvaluation := by
  unfold State.ackEvaluation
  split
  · exact TimeInv.of_prt (s := s.mapSfe fun f => { f with ackPending := false }) h
      (State.evaluate_only _).prt (State.evaluate_only _).own
  · exact h

theorem State.after_timeInv (c : Instr) {s : State} (h : TimeInv s) : TimeInv (s.after c) := by
  have claim : ∀ {f : State → State}, TimeInv (f s) → TimeInv (s.unlessHeld f) :=
    fun hf => State.unlessHeld_cases (P := TimeInv) h fun _ => hf
  have claimed : ∀ {f : State → State} (p : Instr → Bool), (∀ u, TimeInv u → TimeInv (f u)) →
      TimeInv ((s.takeEvent p).unlessHeld f) := fun p hf =>
    State.unlessHeld_cases (P := TimeInv) h fun _ => hf (s.takeEvent p) h
  have slots : ∀ {u t : State}, OnlySlots u t → TimeInv u → TimeInv t := fun ht hu => hu.of_prt ht.prt ht.own
  have evaluates : ∀ {u t : State}, OnlyEvaluates u t → TimeInv u → TimeInv t := fun ht hu => hu.of_prt ht.prt ht.own
  cases hc : ofSetup c
  · cases c with
    | powerOn sn suppr ack =>
      exact ⟨RosterGood.cleared (ownNumber_range sn).1 (ownNumber_range sn).2, TimeOk.fresh _⟩
    | lineReset sn suppr ack =>
      refine ⟨RosterGood.cleared (ownNumber_range sn).1 (ownNumber_range sn).2, ?_⟩
      obtain ⟨-, h1, h2, -⟩ := h
      obtain ⟨-, -, h3, h4, h5, h6, h7⟩ := TimeOk.fresh (ownNumber sn)
      exact ⟨h1, h2, h3, h4, h5, h6, h7⟩
    | rstAssert => exact h
    | sampleEvent vane lamp =>
      exact claimed _ fun u hu => hu.of_prt (u.sample_only vane lamp).prt (u.sample_only vane lamp).own
    | pulseEdge line => exact claim (f := fun s => s.mapSfe fun f => f.pulse line) h
    | supprTransition level =>
      exact claimed (f := fun s => { s with
        pins := { s.pins with suppr := level }, sfe := s.sfe.supprChange level s.ownRec.supprHigh }) _ fun _ hu => hu
    | ackTransition level =>
      refine claimed (f := fun s => ({ s with pins := { s.pins with ack := level } } : State).ackChange level) _
        fun u hu => ?_
      rw [State.ackChange_frame]
      exact hu
    | lineBusy => exact claim (h.posts s.lineBusy_only)
    | lineIdle => exact claimed _ fun _ hu => hu.lineIdle
    | holdoffExpiry quiet => exact claimed _ fun u hu => hu.posts (u.holdoffExpiry_only quiet)
    | transmitSuccess => exact claim (evaluates s.transmitSuccess_only h)
    | collision => exact claim h.collision
    | frameReceived chars => exact claim (f := fun s => s.frameReceived chars) (h.frameReceived chars)
    | preCheck id => exact claimed _ fun u hu => hu.of_prt (u.preCheck_only id).prt (u.preCheck_only id).own
    | fadeDeadline id => exact claimed _ fun u => slots (u.fadeTrack_only id)
    | closeDeadline id => exact claimed _ fun u => slots (u.closeTrack_only id)
    | silenceDeadline n => exact claimed _ fun _ hu => hu.silence n
    | tick => exact claimed _ fun u => evaluates u.evaluate_only
    | evaluation => exact claimed _ fun u => evaluates u.evaluate_only
    | ackEvaluation => exact claimed _ fun _ hu => hu.ackEvaluation
    | epochBoundary => exact claimed _ fun _ hu => hu.boundaryTaken
    | slewStep => exact h.slewStep
    | trimStep => exact h.trimStep
    | schedulePoint => exact claimed _ fun u hu => hu.posts u.schedulePoint_only
    | _ => cases hc
  · obtain ⟨hsetup, -, -⟩ | ⟨hjoin, -⟩ := State.after_setUp hc s
    · refine h.of_prt ?_ ?_ <;> rw [hsetup]
    · obtain ⟨⟨h1, h2, -, -⟩, k1, k2, k3, k4, k5, k6, -⟩ := h
      rw [hjoin]
      exact ⟨RosterGood.cleared h1 h2, k1, k2, k3, k4, k5, k6, List.nodup_nil⟩

end Sys2Proof.Machine

/-! ### Zone states: every step keeps them sound (O59), and the reset state (O60) -/

namespace Sys2Proof.Machine

/-- R99, R101, R102, R112: the zone states of a station that takes part or not. -/
def ZonesGood (active : Bool) (zs : List ZoneState) : Prop :=
  (zs.map (·.zone)).Pairwise (· < ·) ∧ ∀ z ∈ zs, ZoneOk active z

theorem zonesInv_iff {s : State} : ZonesInv s ↔ ZonesGood s.active s.zev.zones := Iff.rfl

/-- Zone states changed one by one. -/
theorem ZonesGood.map {active active' : Bool} {zs : List ZoneState} (h : ZonesGood active zs)
    {f : ZoneState → ZoneState} (hzone : ∀ z, (f z).zone = z.zone) (hok : ∀ z, ZoneOk active z → ZoneOk active' (f z)) :
    ZonesGood active' (zs.map f) := by
  refine ⟨?_, fun y hy => ?_⟩
  · rw [List.map_map, show (·.zone) ∘ f = (·.zone) from funext hzone]
    exact h.1
  · obtain ⟨z, hz, rfl⟩ := List.mem_map.1 hy
    exact hok z (h.2 z hz)

theorem Level.watch_lt_iff {l : Level} : Level.warn.toNat ≤ l.toNat ↔ l = .warn ∨ l = .alarm := by
  cases l <;> decide

theorem Level.ne_clear_of_lt {a l : Level} (h : a.toNat < l.toNat) : l ≠ .clear := by
  rintro rfl
  cases h

theorem Level.toNat_inj {a b : Level} (h : a.toNat = b.toNat) : a = b := by
  cases a <;> cases b <;> first | rfl | cases h

/-! #### The evaluation (R100–R111) -/

theorem ZoneState.levelStep_zone (z : ZoneState) (input : Level) (now : Time) (hold : Nat) :
    (z.levelStep input now hold).zone = z.zone := by
  unfold ZoneState.levelStep
  split_ifs
  · rfl
  · rfl
  · split
    · rfl
    · split <;> rfl

/-- R101, R102, R112: one run of the level machine. -/
theorem ZoneOk.levelStep {z : ZoneState} (h : ZoneOk true z) (input : Level) (now : Time) (hold : Nat) :
    ZoneOk true (z.levelStep input now hold) := by
  obtain ⟨hhold, hacked, hlost, -⟩ := h
  unfold ZoneState.levelStep
  split
  · exact ⟨nofun, nofun, hlost, nofun⟩
  · next hrise =>
    split
    · exact ⟨nofun, hacked, hlost, nofun⟩
    · next hne =>
      have hfall : input.toNat < z.level.toNat := by
        have : input.toNat ≠ z.level.toNat := fun heq => hne (Level.toNat_inj heq)
        omega
      split
      · exact ⟨fun _ => Level.ne_clear_of_lt hfall, hacked, hlost, nofun⟩
      · split
        · refine ⟨fun hh => ?_, fun ha => ?_, hlost, nofun⟩
          · simp only at hh ⊢
            split at hh
            · next hlt => exact Level.ne_clear_of_lt hlt
            · cases hh
          · simp only [Bool.and_eq_true, decide_eq_true_eq] at ha
            exact Level.watch_lt_iff.1 ha.2
        · exact ⟨hhold, hacked, hlost, nofun⟩

theorem ZoneState.settleMirror_frame (z : ZoneState) (good : Bool) (reported : Level) (now : Time) (hold : Nat) :
    z.settleMirror good reported now hold = { z with
      contribution := (z.settleMirror good reported now hold).contribution
      lost := (z.settleMirror good reported now hold).lost
      lostDeadline := (z.settleMirror good reported now hold).lostDeadline } := by
  unfold ZoneState.settleMirror
  cases z.lostDeadline with
  | none => split_ifs <;> rfl
  | some d => simp only; split_ifs <;> rfl

/-- R107–R110: a LOST deadline runs only while LOST. -/
theorem ZoneState.settleMirror_lost {z : ZoneState} (h : z.lostDeadline.isSome = true → z.lost = true) (good : Bool)
    (reported : Level) (now : Time) (hold : Nat) :
    (z.settleMirror good reported now hold).lostDeadline.isSome = true →
      (z.settleMirror good reported now hold).lost = true := by
  unfold ZoneState.settleMirror
  split
  · exact nofun
  · split
    · exact fun _ => rfl
    · next hlost =>
      have hlost : z.lost = true := by simpa using hlost
      split
      · exact h
      · split_ifs <;> exact fun _ => hlost

theorem ZoneOk.settleMirror {active : Bool} {z : ZoneState} (h : ZoneOk active z) (good : Bool) (reported : Level)
    (now : Time) (hold : Nat) : ZoneOk active (z.settleMirror good reported now hold) := by
  obtain ⟨hhold, hacked, hlost, hidle⟩ := h
  have hl := ZoneState.settleMirror_lost hlost good reported now hold
  rw [ZoneState.settleMirror_frame]
  exact ⟨hhold, hacked, hl, hidle⟩

theorem State.mirrorPart_zone (s : State) (z : ZoneState) : (s.mirrorPart z).zone = z.zone := by
  unfold State.mirrorPart
  simp only
  split
  · simp only
    rw [ZoneState.settleMirror_frame]
  · rfl

theorem ZoneOk.mirrorPart {active : Bool} {z : ZoneState} (h : ZoneOk active z) (s : State) :
    ZoneOk active (s.mirrorPart z) := by
  unfold State.mirrorPart
  simp only
  split
  · exact h.settleMirror _ _ _ _
  · exact h

theorem State.evalZone_zone (s : State) (z : ZoneState) : (s.evalZone z).zone = z.zone := by
  unfold State.evalZone
  rw [ZoneState.levelStep_zone, State.mirrorPart_zone]

theorem ZonesInv.of_zones {s t : State} (h : ZonesInv s) (hz : t.zev.zones = s.zev.zones) (ha : t.active = s.active) :
    ZonesInv t := by
  rw [zonesInv_iff, hz, ha]
  exact h

theorem OnlyPosts.zones {s t : State} (h : OnlyPosts s t) : t.zev.zones = s.zev.zones := by rw [h]

theorem ZonesInv.posts {s t : State} (h : ZonesInv s) (ht : OnlyPosts s t) : ZonesInv t :=
  h.of_zones ht.zones ht.active

/-- R84, R100: an evaluation. -/
theorem ZonesInv.evaluate {s : State} (h : ZonesInv s) : ZonesInv s.evaluate := by
  unfold State.evaluate
  split
  · next ha =>
    have hzones : ZonesInv (s.mapZev fun v => { v with zones := s.zev.zones.map s.evalZone }) := by
      refine zonesInv_iff.2 (ZonesGood.map h s.evalZone_zone fun z hz => ?_)
      rw [show (s.mapZev fun v => { v with zones := s.zev.zones.map s.evalZone }).active = true from ha]
      rw [ha] at hz
      have hz : ZoneOk true { z with demand := demand s.tables z.zone (liveTracks s.tracks) s.now } := hz
      exact (hz.mirrorPart s).levelStep _ _ _
    simp only
    split
    · exact hzones.posts (State.postChanges_only _ _ _)
    · exact hzones
  · exact zonesInv_iff.2 (ZonesGood.map h (fun _ => rfl) fun _ hz => hz)

theorem ZonesInv.ackEvaluation {s : State} (h : ZonesInv s) : ZonesInv s.ackEvaluation := by
  unfold State.ackEvaluation
  split
  · have he := ZonesInv.evaluate (s := s.mapSfe fun f => { f with ackPending := false }) h
    refine zonesInv_iff.2 (ZonesGood.map he (fun _ => rfl) fun z hz => ?_)
    obtain ⟨hhold, hacked, hlost, hidle⟩ := hz
    refine ⟨hhold, fun ha => ?_, hlost, hidle⟩
    simp only [Bool.or_eq_true, decide_eq_true_eq] at ha
    obtain ha | hw := ha
    · exact hacked ha
    · exact Level.watch_lt_iff.1 hw
  · exact h

theorem ZonesInv.setAnnounced {s : State} (h : ZonesInv s) (n : Notice) : ZonesInv (s.setAnnounced n) := by
  unfold State.setAnnounced
  split
  · refine zonesInv_iff.2 (ZonesGood.map h (fun z => ?_) fun z hz => ?_)
    · split <;> rfl
    · split
      · exact hz
      · exact hz
  · exact h
  · exact h

theorem ZonesInv.transmitSuccess {s : State} (h : ZonesInv s) : ZonesInv s.transmitSuccess := by
  have hend : ∀ (u : State) k, ZonesInv u → ZonesInv (u.removeEntry k).releaseAfterSuccess.advanceRotation.follow :=
    fun u k hu => by
      refine ZonesInv.posts ?_ (State.follow_only _)
      have hr := ZonesInv.posts (s := u.removeEntry k) hu (State.releaseAfterSuccess_only _)
      exact hr
  unfold State.transmitSuccess
  split
  · exact h
  · refine hend _ _ ?_
    split
    · exact ZonesInv.setAnnounced (s := s.stopDriving) h _
    · exact h

/-- R103: deadlines that run start again. -/
theorem ZonesInv.stepTime {s : State} (h : ZonesInv s) (c : Int) : ZonesInv (s.stepTime c) := by
  refine zonesInv_iff.2 (ZonesGood.map h (fun _ => rfl) fun z hz => ?_)
  obtain ⟨hhold, hacked, hlost, hidle⟩ := hz
  refine ⟨fun hh => hhold ?_, hacked, fun hh => hlost ?_, fun ha => ⟨(hidle ha).1, ?_⟩⟩
  · simpa [ZoneState.restartTiming] using hh
  · simpa [ZoneState.restartTiming] using hh
  · simp [ZoneState.restartTiming, (hidle ha).2]

theorem ZonesInv.faults {s t : State} (h : ZonesInv s) (ht : OnlyFaults s t) : ZonesInv t :=
  h.of_zones (by rw [ht]) ht.active

theorem ZonesInv.enterOperating {s : State} (h : ZonesInv s) (ha : s.active = true) : ZonesInv s.enterOperating := by
  have hop : ZonesInv (s.mapScs fun c => { c with station := .operating }) := h.of_zones rfl (by rw [ha]; rfl)
  exact hop.posts ((State.postLevels_only _ _).trans (State.follow_only _))

theorem ZonesInv.epochBoundary {s : State} (h : ZonesInv s) : ZonesInv s.epochBoundary := by
  have hslew : ∀ (u : State) c, ZonesInv u → ZonesInv (u.slewTime c) := fun u c hu => by
    unfold State.slewTime
    simp only
    split
    · exact ZonesInv.faults (s := u.mapPrt _) (hu.of_zones rfl rfl) (State.faultEvent_only _ _)
    · exact hu
  have hcorr : ZonesInv s.corrected := by
    unfold State.corrected State.applyCorrection
    split
    · next c _ =>
      simp only
      split
      · exact ZonesInv.stepTime (s := s.mapPrt fun p => { p with lastCorr := some c }) h c
      · exact hslew (s.mapPrt fun p => { p with lastCorr := some c }) c h
    · exact h
  have hnotice : ∀ u : State, ZonesInv u → ZonesInv u.boundaryNotice := fun u hu => by
    unfold State.boundaryNotice
    simp only
    change ZonesInv (ite _ _ _)
    split
    · next hj =>
      have ha : u.active = true := by simp [State.active, hj]
      split
      · exact ZonesInv.enterOperating (s := u.mapScs _) (hu.of_zones rfl rfl) ha
      · exact hu
    · exact hu
  rw [State.epochBoundary_eq]
  exact hnotice _ hcorr

theorem ZonesInv.boundaryTaken {s : State} (h : ZonesInv s) : ZonesInv s.boundaryTaken := by
  unfold State.boundaryTaken
  simp only
  split
  · exact h.epochBoundary
  · refine h.epochBoundary.of_zones ?_ ?_
    · obtain ⟨n, hd⟩ := State.passDeadlines_only s.epochBoundary
      rw [hd]
    · obtain ⟨n, hd⟩ := State.passDeadlines_only s.epochBoundary
      exact State.active_congr (by rw [hd])

/-! #### Resets and the entry into JOINING -/

theorem ownedZones_ascending (m : Memory) (own : Nat) : (ownedZones m own).Pairwise (· < ·) :=
  (List.pairwise_lt_range (n := 48)).filter _

/-- R99, R121: the zone states as they are set. -/
theorem ZonesGood.set (m : Memory) (own : Nat) (active : Bool) : ZonesGood active (zevSet m own).zones := by
  refine ⟨?_, fun z hz => ?_⟩
  · have hzones : (zevSet m own).zones.map (·.zone) = ownedZones m own := by
      simp only [zevSet, List.map_map]
      exact List.map_id _
    rw [hzones]
    exact ownedZones_ascending m own
  · obtain ⟨i, -, rfl⟩ := List.mem_map.1 hz
    exact ⟨nofun, nofun, nofun, fun _ => ⟨rfl, rfl⟩⟩

/-! #### Every command -/

theorem OnlyWorks.active {s t : State} (h : OnlyWorks s t) : t.active = s.active :=
  State.active_congr (by rw [h])

theorem State.after_zonesInv (c : Instr) {s : State} (h : ZonesInv s) : ZonesInv (s.after c) := by
  have claim : ∀ {f : State → State}, ZonesInv (f s) → ZonesInv (s.unlessHeld f) :=
    fun hf => State.unlessHeld_cases (P := ZonesInv) h fun _ => hf
  have claimed : ∀ {f : State → State} (p : Instr → Bool), (∀ u, ZonesInv u → ZonesInv (f u)) →
      ZonesInv ((s.takeEvent p).unlessHeld f) := fun p hf =>
    State.unlessHeld_cases (P := ZonesInv) h fun _ => hf (s.takeEvent p) h
  have works : ∀ {u t : State}, OnlyWorks u t → t.zev.zones = u.zev.zones → ZonesInv u → ZonesInv t :=
    fun ht hz hu => hu.of_zones hz ht.active
  have slots : ∀ {u t : State}, OnlySlots u t → ZonesInv u → ZonesInv t := fun ht => works ht.works (by rw [ht])
  have counts : ∀ {u t : State}, OnlyCounts u t → ZonesInv u → ZonesInv t := fun ht => works ht.works (by rw [ht])
  have receives : ∀ {u t : State}, OnlyReceives u t → ZonesInv u → ZonesInv t :=
    fun ht => works ht.works (by rw [ht])
  cases hc : ofSetup c
  · cases c with
    | powerOn sn suppr ack => exact zonesInv_iff.2 (.set _ _ _)
    | lineReset sn suppr ack => exact zonesInv_iff.2 (.set _ _ _)
    | rstAssert => exact h
    | sampleEvent vane lamp =>
      exact claimed _ fun u => works (u.sample_only vane lamp).works (by rw [u.sample_only vane lamp])
    | pulseEdge line => exact claim (f := fun s => s.mapSfe fun f => f.pulse line) h
    | supprTransition level =>
      exact claimed (f := fun s => { s with
        pins := { s.pins with suppr := level }, sfe := s.sfe.supprChange level s.ownRec.supprHigh }) _ fun _ hu => hu
    | ackTransition level =>
      refine claimed (f := fun s => ({ s with pins := { s.pins with ack := level } } : State).ackChange level) _
        fun u hu => ?_
      rw [State.ackChange_frame]
      exact hu
    | lineBusy => exact claim (h.posts s.lineBusy_only)
    | lineIdle => exact claimed _ fun u => receives u.lineIdle_only
    | holdoffExpiry quiet => exact claimed _ fun u hu => hu.posts (u.holdoffExpiry_only quiet)
    | transmitSuccess => exact claim h.transmitSuccess
    | collision => exact claim (receives s.collision_only h)
    | frameReceived chars => exact claim (f := fun s => s.frameReceived chars) (receives (s.frameReceived_only chars) h)
    | preCheck id => exact claimed _ fun u => works (u.preCheck_only id).works (by rw [u.preCheck_only id])
    | fadeDeadline id => exact claimed _ fun u => slots (u.fadeTrack_only id)
    | closeDeadline id => exact claimed _ fun u => slots (u.closeTrack_only id)
    | silenceDeadline n => exact claimed _ fun u => counts (u.silence_counts n)
    | tick => exact claimed _ fun _ hu => hu.evaluate
    | evaluation => exact claimed _ fun _ hu => hu.evaluate
    | ackEvaluation => exact claimed _ fun _ hu => hu.ackEvaluation
    | epochBoundary => exact claimed _ fun _ hu => hu.boundaryTaken
    | slewStep => exact counts s.slewStep_only h
    | trimStep => exact counts s.trimStep_only h
    | schedulePoint => exact claimed _ fun u hu => hu.posts u.schedulePoint_only
    | _ => cases hc
  · obtain ⟨hsetup, ha, -⟩ | ⟨hjoin, -⟩ := State.after_setUp hc s
    · exact h.of_zones (by rw [hsetup]) ha
    · refine zonesInv_iff.2 ?_
      rw [hjoin]
      exact .set _ _ _

theorem ZonesInv.millisecond {s : State} (h : ZonesInv s) : ZonesInv s.millisecond := by
  have hclock : ZonesInv s.clockMs := h.of_zones (by rw [s.clockMs_only]) s.clockMs_only.works.active
  rw [State.millisecond_eq]
  refine State.unlessHeld_cases hclock fun _ => (hclock.posts s.clockMs.quietMs_only).of_zones ?_ ?_
  · rw [State.inputsMs_only]
  · exact State.active_congr (by rw [State.inputsMs_only])

/-! #### Every step -/

/-- Settles O59: every command, and the millisecond, keeps the roster with common time, the sensor front end and
the zone states. -/
theorem blocksStay : Obligations.BlocksStay := by
  intro s s' htime hsensor hzones hstep
  obtain ⟨c, l, rfl⟩ | rfl := step_cases hstep
  · exact ⟨State.after_timeInv c (s := { s with pending := l }) htime,
      sensorInv_iff.2 (State.after_sfeOk c (s := { s with pending := l }) (sensorInv_iff.1 hsensor)),
      State.after_zonesInv c (s := { s with pending := l }) hzones⟩
  · exact ⟨htime.millisecond, sensorInv_iff.2 (sensorInv_iff.1 hsensor).millisecond, hzones.millisecond⟩

theorem tablesInv_reset : TablesInv State.reset := by
  refine ⟨?_, ?_, ?_, rfl, rfl, rfl, rfl⟩
  · unfold MemoryOk
    decide
  · unfold SelectionOk
    decide
  · unfold storeHeaderOk
    decide

theorem lineSound_reset : LineSound State.reset.active State.reset.qlc where
  holdoff := nofun
  sending := nofun
  idle := fun _ => ⟨rfl, rfl⟩
  counters := by
    unfold CountersOk
    decide

theorem queueInv_reset : QueueInv State.reset := queueInv_iff.2 ⟨.empty none, lineSound_reset⟩

theorem framesOpen_reset : FramesOpen State.reset := fun _ hr => hr.elim nofun nofun

theorem timeInv_reset : TimeInv State.reset :=
  ⟨RosterGood.cleared (own := 1) le_rfl (by omega), TimeOk.fresh 1⟩

theorem zonesInv_reset : ZonesInv State.reset := ⟨List.Pairwise.nil, fun _ hz => absurd hz List.not_mem_nil⟩

/-- Settles O60: the state right after power-on, invariant by invariant. -/
theorem resetMeetsInvariants : Obligations.ResetMeetsInvariants :=
  ⟨tablesInv_reset, queueInv_reset, ⟨nofun, nofun⟩, framesOpen_reset, slotsOk_empty, timeInv_reset,
    sensorInv_iff.2 (.fresh _ _), zonesInv_reset⟩

end Sys2Proof.Machine

/-! ### The 18 pages of the tables (R1, R18, R183) -/

namespace Sys2Proof.Machine

/-! #### Blocks of bytes -/

theorem Memory.readBlock_congr {m k : Memory} {a n : Nat} (h : ∀ x, a ≤ x → x < a + n → m.read x = k.read x) :
    m.readBlock a n = k.readBlock a n := by
  induction n generalizing a with
  | zero => rfl
  | succ n ih =>
    rw [Memory.readBlock, Memory.readBlock, h a le_rfl (by omega), ih fun x hx hn => h x (by omega) (by omega)]

theorem Memory.read_of_readBlock_eq {m k : Memory} {a n x : Nat} (h : m.readBlock a n = k.readBlock a n) (ha : a ≤ x)
    (hx : x < a + n) : m.read x = k.read x := by
  obtain ⟨d, rfl⟩ := Nat.exists_eq_add_of_le ha
  rw [← Memory.readBlock_getD m a n d (by omega), ← Memory.readBlock_getD k a n d (by omega), h]

/-- A block written elsewhere leaves the bytes of this one. -/
theorem Memory.readBlock_writeBlock_apart {m : Memory} (hm : m.wf = true) {a b n : Nat} {l : List Byte}
    (h : a + n ≤ b ∨ b + l.length ≤ a) : (m.writeBlock b l).readBlock a n = m.readBlock a n :=
  Memory.readBlock_congr fun x ha hx => by
    rw [Memory.read_writeBlock hm, if_neg (by omega)]

/-- A block copied from another memory reads as it reads there. -/
theorem Memory.readBlock_copy {m : Memory} (hm : m.wf = true) (k : Memory) (a n : Nat) :
    (m.writeBlock a (k.readBlock a n)).readBlock a n = k.readBlock a n :=
  Memory.readBlock_congr fun x ha hx => by
    rw [Memory.read_writeBlock hm, Memory.readBlock_length, if_pos ⟨ha, hx⟩,
      Memory.readBlock_getD _ _ _ _ (by omega), Nat.add_sub_cancel' ha]

/-- Past its extent a memory reads as blank. -/
theorem Memory.read_beyond {m : Memory} {n x : Nat} (h : m.below n = true) (hx : n ≤ x) : m.read x = Memory.blank := by
  induction m with
  | nil => rfl
  | cons c m ih =>
    obtain ⟨a, b⟩ := c
    simp only [Memory.below, List.all_cons, Bool.and_eq_true, decide_eq_true_eq] at h
    obtain ⟨ha, hm⟩ := h
    have hne : a ≠ x := by omega
    rw [Memory.read, if_neg hne]
    exact ih hm

/-! #### Where the pages lie -/

theorem entryLen_pos (table : Nat) : 0 < entryLen table := by
  unfold entryLen
  split <;> omega

theorem entryLen_le (table : Nat) : entryLen table ≤ 50 := by
  unfold entryLen
  split <;> omega

theorem movedBytes_le (table : Nat) : movedBytes table ≤ pageLen table := by
  unfold movedBytes
  split
  · next h => subst h; decide
  · exact le_rfl

theorem pageLen_le (table : Nat) : pageLen table ≤ 800 := by
  have := entryLen_le table
  unfold pageLen
  omega

/-- R1, R18: a page that exists lies inside the 3968 bytes. -/
theorem page_inside {table page : Nat} (h : page < tablePages table) :
    pageAddr table page + pageLen table ≤ tableBytes := by
  match table, h with
  | 0, h | 1, h | 2, h | 3, h =>
    simp only [tablePages] at h
    simp only [pageAddr, pageLen, tableBase, entryLen, tableBytes]
    omega
  | _ + 4, h => cases h

/-- R183: the pages stored are those that exist. -/
theorem mem_pageOrder {table page : Nat} (h : page < tablePages table) : (table, page) ∈ pageOrder := by
  have hall : ∀ t < 4, ∀ p < tablePages t, (t, p) ∈ pageOrder := by decide
  match table, h with
  | 0, h | 1, h | 2, h | 3, h => exact hall _ (by omega) _ h
  | _ + 4, h => cases h

theorem pageOrder_inside : ∀ p ∈ pageOrder, pageAddr p.1 p.2 + pageLen p.1 ≤ tableBytes := by decide

/-- R18: the pages follow one another. -/
theorem pageOrder_apart : ∀ k < 18, ∀ p ∈ pageOrder.take k,
    pageAddr p.1 p.2 + pageLen p.1 ≤ pageAddr (pageOrder.getD k (0, 0)).1 (pageOrder.getD k (0, 0)).2 := by
  decide

/-- R18: every byte of the tables lies in one of the 18 pages. -/
theorem exists_page {a : Nat} (h : a < tableBytes) :
    ∃ p ∈ pageOrder, pageAddr p.1 p.2 ≤ a ∧ a < pageAddr p.1 p.2 + pageLen p.1 := by
  have within : ∀ table page, page < tablePages table →
      pageAddr table page ≤ a ∧ a < pageAddr table page + pageLen table →
      ∃ p ∈ pageOrder, pageAddr p.1 p.2 ≤ a ∧ a < pageAddr p.1 p.2 + pageLen p.1 :=
    fun table page hp ha => ⟨(table, page), mem_pageOrder hp, ha⟩
  simp only [tableBytes] at h
  by_cases h0 : a < 192
  · exact within 0 0 (by decide) (by simp only [pageAddr, pageLen, tableBase, entryLen]; omega)
  by_cases h1 : a < 416
  · exact within 1 ((a - 192) / 112) (by simp only [tablePages]; omega)
      (by simp only [pageAddr, pageLen, tableBase, entryLen]; omega)
  by_cases h2 : a < 1568
  · exact within 2 ((a - 416) / 96) (by simp only [tablePages]; omega)
      (by simp only [pageAddr, pageLen, tableBase, entryLen]; omega)
  · exact within 3 ((a - 1568) / 800) (by simp only [tablePages]; omega)
      (by simp only [pageAddr, pageLen, tableBase, entryLen]; omega)

/-- R18: memories that agree on the 18 pages are equal. -/
theorem Memory.eq_of_pages {m k : Memory} (hm : m.wf = true) (hk : k.wf = true) (hmb : m.below tableBytes = true)
    (hkb : k.below tableBytes = true)
    (h : ∀ p ∈ pageOrder, m.readBlock (pageAddr p.1 p.2) (pageLen p.1) =
      k.readBlock (pageAddr p.1 p.2) (pageLen p.1)) : m = k := by
  refine Memory.ext_of_read hm hk fun x => ?_
  by_cases hx : x < tableBytes
  · obtain ⟨p, hp, ha, hn⟩ := exists_page hx
    exact Memory.read_of_readBlock_eq (h p hp) ha hn
  · rw [Memory.read_beyond hmb (by omega), Memory.read_beyond hkb (by omega)]

end Sys2Proof.Machine

/-! ### Tables, store and setup port: every step keeps them (O56) -/

namespace Sys2Proof.Machine

theorem TablesInv.works {s t : State} (h : TablesInv s) (ht : OnlyWorks s t) : TablesInv t := by
  rw [ht]
  exact h

/-- R184: the boundary notice keeps the station or takes it from JOINING to OPERATING. -/
def NoticedStation (s t : State) : Prop :=
  t.scs.station = s.scs.station ∨ s.scs.station = .joining ∧ t.scs.station = .operating

theorem State.corrected_station (s : State) : s.corrected.scs.station = s.scs.station := by
  unfold State.corrected State.applyCorrection State.slewTime
  split
  · simp only
    split_ifs
    · rfl
    · rw [State.faultEvent_only]
      rfl
    · rfl
  · rfl

theorem State.enterOperating_station (s : State) : s.enterOperating.scs.station = .operating := by
  have hposts := (State.postLevels_only (s.mapScs fun c => { c with station := .operating }) s.zev.zones).trans
    (State.follow_only _)
  exact congrArg Scs.station hposts.scs

theorem State.boundaryNotice_station (s : State) : NoticedStation s s.boundaryNotice := by
  unfold State.boundaryNotice
  by_cases hj : s.scs.station = .joining
  · simp only [if_pos hj]
    split
    · exact .inr ⟨hj, State.enterOperating_station _⟩
    · exact .inl rfl
  · simp only [if_neg hj]
    exact .inl rfl

theorem State.boundaryTaken_station (s : State) : NoticedStation s s.boundaryTaken := by
  have hepoch : NoticedStation s s.epochBoundary := by
    rw [State.epochBoundary_eq]
    have hafter : ∀ f, NoticedStation s (s.corrected.mapPrt f).boundaryNotice := fun f => by
      have h := (s.corrected.mapPrt f).boundaryNotice_station
      rw [NoticedStation, show (s.corrected.mapPrt f).scs.station = _ from s.corrected_station] at h
      exact h
    exact hafter _
  unfold State.boundaryTaken
  simp only
  split
  · exact hepoch
  · obtain ⟨n, hd⟩ := State.passDeadlines_only s.epochBoundary
    have hscs : s.epochBoundary.passDeadlines.scs = s.epochBoundary.scs := by rw [hd]
    rw [NoticedStation, hscs]
    exact hepoch

theorem TablesInv.boundaryTaken {s : State} (h : TablesInv s) : TablesInv s.boundaryTaken := by
  have honly := s.boundaryTaken_only
  obtain ⟨hmem, hsel, hheader, hstation⟩ := h
  obtain hs | ⟨hj, ho⟩ := s.boundaryTaken_station
  · rw [honly, hs]
    exact ⟨hmem, hsel, hheader, hstation⟩
  · rw [honly, ho]
    rw [hj] at hstation
    exact ⟨hmem, hsel, hheader, hstation⟩

/-! #### Resets, JOINING and the end of the window -/

/-- R176: the state after POWER_ON. -/
theorem TablesInv.powerOn {s : State} (h : TablesInv s) (pins : Pins) (l : List Instr) :
    TablesInv (powerOnState pins s.store l) := by
  obtain ⟨⟨-, -, hpwf, hpbelow, -, -⟩, -, hheader, -⟩ := h
  have htables : s.store.loadedTables.wf = true ∧ s.store.loadedTables.below tableBytes = true := by
    unfold Store.loadedTables
    split
    · exact ⟨hpwf, hpbelow⟩
    · exact ⟨rfl, rfl⟩
  exact ⟨⟨htables.1, htables.2, hpwf, hpbelow, rfl, rfl⟩, ⟨Nat.one_pos, Nat.zero_le _, entryLen_pos 0⟩, hheader, rfl,
    rfl, rfl, rfl⟩

theorem TablesInv.lineReset {s : State} (h : TablesInv s) (pins : Pins) : TablesInv (s.lineReset pins) :=
  h.powerOn pins s.pending

/-- What a station in JOINING or OPERATING holds (R184). -/
def ServesStored (s : State) : Prop :=
  s.scs.busy = .clear ∧ s.scs.prog = none ∧ s.store.valid = true ∧ s.store.pages = s.tables ∧
    s.scs.checksum = s.store.checksum

theorem TablesInv.serves {s : State} (h : TablesInv s) (hs : s.scs.station = .joining ∨ s.scs.station = .operating) :
    ServesStored s := by
  obtain ⟨-, -, -, hstation⟩ := h
  obtain hs | hs := hs
  · rw [hs] at hstation
    exact hstation
  · rw [hs] at hstation
    exact hstation

/-- R184: JOINING is entered with the tables stored. -/
theorem TablesInv.enterJoining {s : State} (hmem : MemoryOk s) (hsel : SelectionOk s) (hheader : storeHeaderOk s)
    (hserves : ServesStored s) : TablesInv s.enterJoining := ⟨hmem, hsel, hheader, hserves⟩

theorem TablesInv.of_setup {s : State} (hmem : MemoryOk s) (hsel : SelectionOk s) (hheader : storeHeaderOk s)
    (hs : s.scs.station = .setup) (hb : s.scs.busy ≠ .programming) (hp : s.scs.prog = none) : TablesInv s := by
  refine ⟨hmem, hsel, hheader, ?_⟩
  rw [hs]
  exact ⟨hb, hp⟩

/-- R176: the station in WINDOW works with what the store loads. -/
theorem TablesInv.window {s : State} (h : TablesInv s) (hs : s.scs.station = .window) :
    s.scs.busy = .clear ∧ s.scs.prog = none ∧ s.tables = s.store.loadedTables ∧
      s.scs.checksum = s.store.loadedChecksum := by
  obtain ⟨-, -, -, hstation⟩ := h
  rw [hs] at hstation
  exact hstation

theorem TablesInv.setup {s : State} (h : TablesInv s) (hs : s.scs.station = .setup) :
    s.scs.busy ≠ .programming ∧ s.scs.prog = none := by
  obtain ⟨-, -, -, hstation⟩ := h
  rw [hs] at hstation
  exact hstation

theorem TablesInv.programming {s : State} (h : TablesInv s) (hs : s.scs.station = .programming) :
    s.scs.busy = .programming ∧ s.store.valid = false ∧ ∃ p, s.scs.prog = some p ∧ programmingOk s p := by
  obtain ⟨-, -, -, hstation⟩ := h
  rw [hs] at hstation
  exact hstation

/-- R181: a commit is in progress in SETUP alone. -/
theorem TablesInv.station_of_commit {s : State} (h : TablesInv s) (hb : s.scs.busy = .commit) :
    s.scs.station = .setup := by
  cases hs : s.scs.station with
  | setup => rfl
  | window => exact nomatch hb.symm.trans (h.window hs).1
  | programming => exact nomatch hb.symm.trans (h.programming hs).1
  | joining => exact nomatch hb.symm.trans (h.serves (.inl hs)).1
  | operating => exact nomatch hb.symm.trans (h.serves (.inr hs)).1

theorem TablesInv.windowExpires {s : State} (h : TablesInv s) : TablesInv s.windowExpires := by
  have h' := h
  obtain ⟨hmem, hsel, hheader, -⟩ := h'
  unfold State.windowExpires
  split
  · next hw =>
    obtain ⟨hb, hp, htables, hsum⟩ := h.window hw
    have hb' : s.scs.busy ≠ .programming := by rw [hb]; decide
    split
    · next hv =>
      split
      · refine .enterJoining hmem hsel hheader ⟨hb, hp, hv, ?_, ?_⟩
        · rw [htables, Store.loadedTables, if_pos hv]
        · rw [hsum, Store.loadedChecksum, if_pos hv]
      · exact .of_setup hmem hsel hheader rfl hb' hp
    · exact .of_setup hmem hsel hheader rfl hb' hp
  · exact h

/-! #### Loading the tables (R180, R181) -/

theorem TablesInv.commitDone {s : State} (h : TablesInv s) : TablesInv s.commitDone := by
  unfold State.commitDone
  split
  · next hb =>
    have hs := h.station_of_commit hb
    have hp := (h.setup hs).2
    obtain ⟨⟨hwf, hbelow, hrest⟩, hsel, hheader, -⟩ := h
    refine .of_setup ⟨committed_wf hwf s.scs, ?_, hrest⟩ hsel hheader hs (nofun : ¬BusyMark.clear = .programming) hp
    refine Memory.below_writeBlock hbelow ?_
    have := page_inside hsel.1
    have := movedBytes_le s.scs.tableSel
    rw [Memory.readBlock_length]
    omega
  · exact h

theorem loadedBuffer_below (m : Memory) (table page : Nat) : (loadedBuffer m table page).below 800 = true := by
  refine Memory.below_writeBlock rfl ?_
  have := movedBytes_le table
  have := pageLen_le table
  rw [Memory.readBlock_length]
  omega

/-- The port's registers, the buffer and the selection replaced by others in range. -/
theorem TablesInv.of_port {s : State} (h : TablesInv s) {c : Scs}
    (hkept : c.station = s.scs.station ∧ c.busy = s.scs.busy ∧ c.prog = s.scs.prog ∧ c.checksum = s.scs.checksum)
    (hbuf : c.buffer.wf = true ∧ c.buffer.below 800 = true)
    (hsel : c.pageSel < tablePages c.tableSel ∧ c.entryPtr ≤ 15 ∧ c.byteOff < entryLen c.tableSel) :
    TablesInv { s with scs := c } := by
  obtain ⟨⟨ht, htb, hp, hpb, -, -⟩, -, hheader, hstation⟩ := h
  obtain ⟨hs, hbusy, hprog, hsum⟩ := hkept
  refine ⟨⟨ht, htb, hp, hpb, hbuf⟩, hsel, hheader, ?_⟩
  cases c
  subst hs hbusy hprog hsum
  exact hstation

/-- R180: the advance keeps pointer and offset inside the page. -/
theorem Scs.advanceEntry_inside {c : Scs} (h : c.entryPtr ≤ 15 ∧ c.byteOff < entryLen c.tableSel) :
    c.advanceEntry.entryPtr ≤ 15 ∧ c.advanceEntry.byteOff < entryLen c.tableSel := by
  unfold Scs.advanceEntry
  split
  · next hlt => exact ⟨h.1, hlt⟩
  · exact ⟨min_le_right _ _, entryLen_pos _⟩

/-- R180: the buffer byte accessed lies inside the buffer. -/
theorem Scs.bufferAddr_lt {c : Scs} (h : c.entryPtr ≤ 15 ∧ c.byteOff < entryLen c.tableSel) : c.bufferAddr < 800 := by
  obtain ⟨hptr, hoff⟩ := h
  have hlen := entryLen_le c.tableSel
  have hmul : c.entryPtr * entryLen c.tableSel ≤ 15 * entryLen c.tableSel := Nat.mul_le_mul_right _ hptr
  unfold Scs.bufferAddr
  omega

theorem TablesInv.entryWritten {s : State} (h : TablesInv s) (data : Byte) :
    TablesInv (s.mapScs fun c => { c with buffer := c.buffer.write c.bufferAddr data }.advanceEntry) := by
  obtain ⟨⟨-, -, -, -, hbwf, hbbelow⟩, ⟨hpage, hin⟩, -, -⟩ := id h
  change TablesInv { s with scs := Scs.advanceEntry { s.scs with buffer := s.scs.buffer.write s.scs.bufferAddr data } }
  rw [Scs.advanceEntry_frame]
  exact h.of_port ⟨rfl, rfl, rfl, rfl⟩
    ⟨Memory.wf_write hbwf _ _, Memory.below_write hbbelow (Scs.bufferAddr_lt hin) _⟩
    ⟨hpage, Scs.advanceEntry_inside (c := { s.scs with buffer := _ }) hin⟩

theorem TablesInv.entryRead {s : State} (h : TablesInv s) : TablesInv s.entryRead := by
  obtain ⟨⟨-, -, -, -, hbuf⟩, ⟨hpage, hin⟩, -, -⟩ := id h
  refine State.throughPort_cases (P := TablesInv) h fun _ => ?_
  simp only
  split
  · change TablesInv { s with scs := { s.scs.advanceEntry with sdout := _ } }
    rw [Scs.advanceEntry_frame]
    exact h.of_port ⟨rfl, rfl, rfl, rfl⟩ hbuf ⟨hpage, Scs.advanceEntry_inside hin⟩
  · exact h

/-! #### The commands (R179–R188) -/

theorem TablesInv.command {s : State} (h : TablesInv s) {ok : StationState → Bool} {f : State → State}
    (hf : s.scs.busy = .clear → ok s.scs.station = true → TablesInv (f s)) : TablesInv (s.command ok f) :=
  State.command_cases (P := TablesInv) h (fun _ => h) fun _ => hf

theorem TablesInv.beginProgramming {s : State} (hmem : MemoryOk s) (hsel : SelectionOk s) {value : Word16}
    (hvalue : value = tableChecksum s.tables) : TablesInv (s.beginProgramming value) := by
  have hstored : ∀ u : State, pagesStored u (.page 0) := fun u =>
    ⟨by decide, fun p hp => absurd hp List.not_mem_nil⟩
  exact ⟨hmem, hsel, nofun, rfl, rfl, _, rfl, hvalue, hstored _⟩

theorem TablesInv.reported {s : State} (h : TablesInv s) (code : SetupError) (table entry : Nat) :
    TablesInv (((s.setError .noError 0 0).setError code table entry).setResult .done) := h

theorem TablesInv.startCmd {s : State} (h : TablesInv s) : TablesInv s.startCmd := by
  obtain ⟨hmem, hsel, -, -⟩ := id h
  unfold State.startCmd
  simp only
  split
  · exact h.reported _ _ _
  · split
    · exact .beginProgramming (s := s.setError .noError 0 0) hmem hsel
        (congrArg tableChecksum (rfl : s.tables = (s.setError .noError 0 0).tables))
    · exact h.reported _ _ _

theorem TablesInv.onChannel {s : State} (h : TablesInv s) {f : State → Channel → State}
    (hf : ∀ c, OnlyWorks s (f s c)) : TablesInv (s.onChannel f) := by
  unfold State.onChannel
  split
  · next c _ => exact (h.works (hf c) : TablesInv (f s c))
  · exact h
  · exact h

theorem TablesInv.commandWrite {s : State} (h : TablesInv s) (code : Byte) : TablesInv (s.commandWrite code) := by
  obtain ⟨hmem, hsel, hheader, -⟩ := id h
  obtain ⟨ht, htb, hp, hpb, -, -⟩ := id hmem
  unfold State.commandWrite
  split
  · refine h.command fun hb hok => ?_
    have hw := h.window (of_decide_eq_true hok)
    exact .of_setup hmem hsel hheader rfl (show s.scs.busy ≠ _ by rw [hb]; decide) hw.2.1
  · exact h.command fun _ _ => h.of_port ⟨rfl, rfl, rfl, rfl⟩ ⟨rfl, rfl⟩ ⟨hsel.1, Nat.zero_le _, entryLen_pos _⟩
  · refine h.command fun _ hok => ?_
    have hs : s.scs.station = .setup := of_decide_eq_true hok
    exact .of_setup hmem hsel hheader hs (nofun : ¬BusyMark.commit = .programming) (h.setup hs).2
  · exact h.command fun _ _ => h.startCmd
  · refine h.command fun _ hok => ?_
    have hserves := h.serves (of_decide_eq_true hok)
    unfold State.restartCmd
    rw [State.restart_eq]
    exact ⟨hmem, hsel, hheader, hserves⟩
  · refine h.command fun _ _ => ?_
    have hposts := State.follow_only (s.mapScs fun c => { c with
      faults := c.faults.cleared s.sfe.anemoSilent s.sfe.vaneErratic s.sfe.dustLamp s.prt.timeRail, result := .done })
    have hcleared : TablesInv (s.mapScs fun c => { c with
      faults := c.faults.cleared s.sfe.anemoSilent s.sfe.vaneErratic s.sfe.dustLamp s.prt.timeRail
      result := .done }) := h
    exact hcleared.works hposts.works
  · exact h.command fun _ _ => h.onChannel fun _ => rfl
  · exact h.command fun _ _ => h.onChannel fun c => by rw [s.channelIn_frame c]; rfl
  · refine State.throughPort_cases (P := TablesInv) h fun _ => ?_
    split <;> exact h

theorem TablesInv.portWrite {s : State} (h : TablesInv s) (index : Nat) (data : Byte) :
    TablesInv (s.portWrite index data) := by
  obtain ⟨⟨-, -, -, -, hbuf⟩, hsel, -, -⟩ := id h
  have guarded : ∀ (b : State → Bool) (f : State → State), (b s = true → TablesInv (f s)) →
      TablesInv (s.throughPort fun s => if b s then f s else s) := fun b f hf =>
    State.throughPort_cases (P := TablesInv) h fun _ => by
      split
      · exact hf ‹_›
      · exact h
  unfold State.portWrite
  split
  · exact h.commandWrite data
  · refine guarded _ _ fun hopen => ?_
    simp only [Bool.and_eq_true, decide_eq_true_eq] at hopen
    exact h.of_port ⟨rfl, rfl, rfl, rfl⟩ ⟨loadedBuffer_wf _ _ _, loadedBuffer_below _ _ _⟩
      ⟨hopen.2, Nat.zero_le _, entryLen_pos _⟩
  · exact guarded _ _ fun _ => h.of_port ⟨rfl, rfl, rfl, rfl⟩ hbuf ⟨hsel.1, min_le_right _ _, entryLen_pos _⟩
  · exact guarded _ _ fun _ => h.entryWritten data
  · exact guarded _ _ fun _ => h
  · exact guarded _ _ fun _ => h
  · exact guarded _ _ fun _ => h
  · exact h

/-! #### Programming of the store (R183) -/

theorem TablesInv.of_programming {s : State} (hmem : MemoryOk s) (hsel : SelectionOk s) (hs : s.scs.station = .programming)
    (hb : s.scs.busy = .programming) (hv : s.store.valid = false) {p : Programming} (hp : s.scs.prog = some p)
    (hok : programmingOk s p) : TablesInv s := by
  refine ⟨hmem, hsel, fun hv' => (nomatch hv.symm.trans hv'), ?_⟩
  rw [hs]
  exact ⟨hb, hv, p, hp, hok⟩

/-- R183: programming failed, the header not valid. -/
theorem TablesInv.programmingFails {s : State} (hmem : MemoryOk s) (hsel : SelectionOk s) (hv : s.store.valid = false)
    (table entry : Nat) : TablesInv (s.programmingFails table entry) := by
  rw [State.programmingFails_eq]
  exact ⟨hmem, hsel, fun hv' => (nomatch hv.symm.trans hv'), nofun, rfl⟩

/-- R183: after page `k` the pages up to it are stored. -/
theorem pagesStored_after {s : State} {k : Nat} (hk : k < pageOrder.length)
    (hbefore : ∀ p ∈ pageOrder.take k, s.store.pages.readBlock (pageAddr p.1 p.2) (pageLen p.1) =
      s.tables.readBlock (pageAddr p.1 p.2) (pageLen p.1))
    (hthis : s.store.pages.readBlock (pageAddr (pageOrder.getD k (0, 0)).1 (pageOrder.getD k (0, 0)).2)
        (pageLen (pageOrder.getD k (0, 0)).1) =
      s.tables.readBlock (pageAddr (pageOrder.getD k (0, 0)).1 (pageOrder.getD k (0, 0)).2)
        (pageLen (pageOrder.getD k (0, 0)).1)) : pagesStored s (ProgStage.after k) := by
  have hupto : ∀ p ∈ pageOrder.take (k + 1), s.store.pages.readBlock (pageAddr p.1 p.2) (pageLen p.1) =
      s.tables.readBlock (pageAddr p.1 p.2) (pageLen p.1) := fun p hp => by
    rw [List.take_succ_eq_append_getElem hk, List.mem_append, List.mem_singleton] at hp
    obtain hp | rfl := hp
    · exact hbefore p hp
    · rwa [List.getD_eq_getElem _ _ hk] at hthis
  unfold ProgStage.after
  split
  · next hnext => exact ⟨hnext, hupto⟩
  · rwa [List.take_of_length_le (by omega)] at hupto

theorem TablesInv.pageDone {s : State} (h : TablesInv s) {p : Programming} (hs : s.scs.station = .programming)
    (hprog : s.scs.prog = some p) {k : Nat} (hstage : p.stage = .page k) (readBack : List Byte) :
    TablesInv (s.pageDone p k readBack) := by
  obtain ⟨hb, hv, q, hq, hvalue, hstored⟩ := h.programming hs
  obtain rfl : q = p := Option.some.inj (hq.symm.trans hprog)
  rw [hstage] at hstored
  obtain ⟨hk, hbefore⟩ := hstored
  obtain ⟨⟨ht, htb, hpwf, hpb, hbuf⟩, hsel, -, -⟩ := h
  unfold State.pageDone
  simp only
  generalize hat : pageOrder.getD k (0, 0) = page
  have hmem : page ∈ pageOrder := by
    rw [← hat, List.getD_eq_getElem _ _ hk]
    exact List.getElem_mem hk
  have hlen : (readBack.take (pageLen page.1)).length ≤ pageLen page.1 := by
    rw [List.length_take]
    exact min_le_left _ _
  let s1 := { s with store := { s.store with
    pages := s.store.pages.writeBlock (pageAddr page.1 page.2) (readBack.take (pageLen page.1)) } }
  have hmem1 : MemoryOk s1 := by
    refine ⟨ht, htb, Memory.wf_writeBlock hpwf _ _, Memory.below_writeBlock hpb ?_, hbuf⟩
    have := pageOrder_inside page hmem
    omega
  have hbefore1 : ∀ p ∈ pageOrder.take k, s1.store.pages.readBlock (pageAddr p.1 p.2) (pageLen p.1) =
      s.tables.readBlock (pageAddr p.1 p.2) (pageLen p.1) := fun p hp => by
    have hapart := pageOrder_apart k hk p hp
    rw [hat] at hapart
    exact (Memory.readBlock_writeBlock_apart hpwf (.inl hapart)).trans (hbefore p hp)
  split
  · next hsame =>
    refine .of_programming hmem1 hsel hs hb hv (p := { q with stage := ProgStage.after k, retried := false }) rfl
      ⟨hvalue, pagesStored_after (s := s1) hk hbefore1 ?_⟩
    rw [hat]
    have hall : readBack.take (pageLen page.1) = s.tables.readBlock (pageAddr page.1 page.2) (pageLen page.1) := by
      rw [hsame, List.take_of_length_le (by rw [Memory.readBlock_length])]
    change (s.store.pages.writeBlock _ (readBack.take (pageLen page.1))).readBlock _ _ = _
    rw [hall, Memory.readBlock_copy hpwf]
  · split
    · exact .programmingFails (s := s1) hmem1 hsel hv _ _
    · refine .of_programming hmem1 hsel hs hb hv (p := { q with retried := true }) rfl ⟨hvalue, ?_⟩
      change pagesStored s1 q.stage
      rw [hstage]
      exact ⟨hk, hbefore1⟩

theorem TablesInv.headerDone {s : State} (h : TablesInv s) {p : Programming} (hs : s.scs.station = .programming)
    (hprog : s.scs.prog = some p) (hstage : p.stage = .header) (valid : Bool) (checksum : Word16) :
    TablesInv (s.headerDone p valid checksum) := by
  obtain ⟨hb, hv, q, hq, hvalue, hstored⟩ := h.programming hs
  obtain rfl : q = p := Option.some.inj (hq.symm.trans hprog)
  obtain ⟨hmem, hsel, -, -⟩ := h
  obtain ⟨ht, htb, hpwf, hpb, -⟩ := id hmem
  have hstored' := hstored
  rw [hstage] at hstored'
  have hpages : s.store.pages = s.tables := Memory.eq_of_pages hpwf ht hpb htb hstored'
  unfold State.headerDone
  split
  · refine .enterJoining hmem hsel (fun _ => ?_) ⟨rfl, rfl, rfl, hpages, rfl⟩
    exact hvalue.trans (congrArg tableChecksum hpages.symm)
  · split
    · exact .programmingFails hmem hsel hv _ _
    · exact .of_programming hmem hsel hs hb hv (p := { q with retried := true }) rfl ⟨hvalue, hstored⟩

theorem TablesInv.storePage {s : State} (h : TablesInv s) (readBack : List Byte) : TablesInv (s.storePage readBack) := by
  unfold State.storePage
  split
  · exact h
  · next p hp =>
    obtain ⟨hs, hprog⟩ := State.inProgress_some hp
    split
    · next k hstage => exact h.pageDone hs hprog hstage readBack
    · exact h

theorem TablesInv.storeHeader {s : State} (h : TablesInv s) (valid : Bool) (checksum : Word16) :
    TablesInv (s.storeHeader valid checksum) := by
  unfold State.storeHeader
  split
  · exact h
  · next p hp =>
    obtain ⟨hs, hprog⟩ := State.inProgress_some hp
    split
    · exact h
    · next hstage => exact h.headerDone hs hprog hstage valid checksum

/-! #### Every step -/

theorem State.after_tablesInv (c : Instr) {s : State} (h : TablesInv s) : TablesInv (s.after c) := by
  have claim : ∀ {f : State → State}, TablesInv (f s) → TablesInv (s.unlessHeld f) :=
    fun hf => State.unlessHeld_cases (P := TablesInv) h fun _ => hf
  have claimed : ∀ {f : State → State} (p : Instr → Bool), (∀ u, TablesInv u → TablesInv (f u)) →
      TablesInv ((s.takeEvent p).unlessHeld f) := fun p hf =>
    State.unlessHeld_cases (P := TablesInv) h fun _ => hf (s.takeEvent p) h
  cases hc : ofBlocks c
  · cases c with
    | powerOn sn suppr ack => exact h.powerOn _ _
    | lineReset sn suppr ack => exact h.lineReset _
    | epochBoundary => exact claimed _ fun _ hu => hu.boundaryTaken
    | windowExpiry => exact claimed _ fun _ hu => hu.windowExpires
    | hold => exact h.commandWrite 1
    | clearBuffer => exact h.commandWrite 2
    | commitPage => exact h.commandWrite 3
    | commitComplete => exact claimed _ fun _ hu => hu.commitDone
    | start => exact h.commandWrite 4
    | storePageDone readBack => exact claim (f := fun s => s.storePage readBack) (h.storePage readBack)
    | storeHeaderDone valid checksum =>
      exact claim (f := fun s => s.storeHeader valid checksum) (h.storeHeader valid checksum)
    | restart => exact h.commandWrite 5
    | clearFaults => exact h.commandWrite 6
    | channelOut => exact h.commandWrite 7
    | channelIn => exact h.commandWrite 8
    | unknownCommand code => exact h.commandWrite code
    | tableSelectWrite data => exact h.portWrite 0x05 data
    | entryPointerWrite data => exact h.portWrite 0x06 data
    | entryDataWrite data => exact h.portWrite 0x07 data
    | entryDataRead => exact h.entryRead
    | expectedChecksumH data => exact h.portWrite 0x08 data
    | expectedChecksumL data => exact h.portWrite 0x09 data
    | viewSelect code => exact h.portWrite 0x10 code
    | viewData =>
      refine State.throughPort_cases (P := TablesInv) h fun _ => ?_
      split
      · split <;> exact h
      · exact h
    | registerWriteIgnored index data => exact h.portWrite _ data
    | transactionAbandon => exact h
    | _ => cases hc
  · exact h.works (State.after_works hc s)

theorem TablesInv.millisecond {s : State} (h : TablesInv s) : TablesInv s.millisecond := by
  have hclock : TablesInv s.clockMs := h.works s.clockMs_only.works
  rw [State.millisecond_eq]
  refine State.unlessHeld_cases hclock fun _ => ?_
  have hquiet := hclock.works s.clockMs.quietMs_only.works
  rw [State.inputsMs_only]
  exact hquiet

/-- Settles O56: every command, and the millisecond, keeps tables, store and setup port sound. -/
theorem tablesStay : Obligations.TablesStay := by
  intro s s' h hstep
  obtain ⟨c, l, rfl⟩ | rfl := step_cases hstep
  · exact State.after_tablesInv c (s := { s with pending := l }) h
  · exact h.millisecond

end Sys2Proof.Machine

/-! ### The deadlines that common time reaches (R75, R162, R163) -/

namespace Sys2Proof.Machine

/-! #### Times -/

/-- A two-byte field holds less than 2^16. -/
theorem field2_lt (m : Memory) (table i off : Nat) : field2 m table i off < 65536 := by
  have h1 := (m.read (entryAddr table i + off)).isLt
  have h2 := (m.read (entryAddr table i + (off + 1))).isLt
  simp only [field2, field1]
  omega

/-- A deadline less than 2^31 ms ahead is reached only when it is now. -/
theorem reached_ahead {now : Time} {n : Nat} (h : n < 2 ^ 31) : reached now (now + BitVec.ofNat 32 n) = true ↔ n = 0 := by
  unfold reached timeDiff
  rw [decide_eq_true_eq, BitVec.toInt_eq_toNat_cond]
  have := now.isLt
  simp only [BitVec.toNat_sub, BitVec.toNat_add, BitVec.toNat_ofNat]
  omega

theorem reached_closeTime (m : Memory) (now : Time) :
    reached now (now + seconds (site m).closeTime) = decide ((site m).closeTime = 0) := by
  have hlt : (site m).closeTime < 65536 := field2_lt m 0 0 5
  have hiff := reached_ahead (now := now) (n := (site m).closeTime * 1000) (by omega)
  rw [Bool.eq_iff_iff, decide_eq_true_eq]
  exact hiff.trans (by omega)

/-! #### The deadlines of tracks (R73–R75) -/

theorem Track.faded_closeDue (t : Track) (m : Memory) (now : Time) :
    (t.faded now (site m).closeTime).closeDue now = decide ((site m).closeTime = 0) := by
  simp [Track.faded, Track.closeDue, reached_closeTime]

/-- R73–R75: the table after the deadlines reached have passed. -/
theorem passTracks_passed (m : Memory) (slots : List (Option Track)) (now : Time) :
    TracksPassed now (site m).closeTime slots (passTracks slots now (site m).closeTime) := by
  refine ⟨passTracks_length _ _ _, fun k => ⟨fun hk => by simp [hk], fun t hk => ?_⟩⟩
  simp only [passTracks_getElem?, hk, Option.map_some, Option.bind_some]
  refine ⟨fun hs hr => ?_, fun d hs hd hr => ?_, fun hfade hclose => ?_⟩
  · rw [Track.pass_of_fadeDue (Track.fadeDue_iff.2 ⟨hs, hr⟩), Track.faded_closeDue]
    by_cases hc : (site m).closeTime = 0 <;> simp [hc, Track.faded]
  · have hnot : t.fadeDue now = false := by simp [Track.fadeDue, hs]
    rw [Track.pass_of_closeDue hnot (Track.closeDue_iff.2 ⟨hs, d, hd, hr⟩)]
  · have hnot : t.fadeDue now = false := Bool.eq_false_iff.2 fun h => by
      obtain ⟨hs, hr⟩ := Track.fadeDue_iff.1 h
      exact nomatch (hfade hs).symm.trans hr
    have hnotc : t.closeDue now = false := Bool.eq_false_iff.2 fun h => by
      obtain ⟨hs, d, hd, hr⟩ := Track.closeDue_iff.1 h
      exact nomatch (hclose hs d hd).symm.trans hr
    rw [Track.pass_of_not_due hnot hnotc]

/-- R73, R74: a track passes one deadline, two where the close time is 0, or none. -/
theorem Track.pass_count (t : Track) (m : Memory) (now : Time) : (t.pass now (site m).closeTime).2 =
    (if t.fadeDue now then 1 else 0) + (if t.closeDue now then 1 else 0) +
      if (site m).closeTime = 0 then (if t.fadeDue now then 1 else 0) else 0 := by
  cases hf : t.fadeDue now
  · cases hc : t.closeDue now
    · simp [Track.pass_of_not_due hf hc]
    · simp [Track.pass_of_closeDue hf hc]
  · have hnotc : t.closeDue now = false := Bool.eq_false_iff.2 fun h =>
      (Track.fadeDue_iff.1 hf).1 (Track.closeDue_iff.1 h).1
    rw [Track.pass_of_fadeDue hf, Track.faded_closeDue, hnotc]
    by_cases hc : (site m).closeTime = 0 <;> simp [hc]

theorem passedCount_eq (m : Memory) (slots : List (Option Track)) (now : Time) :
    passedCount slots now (site m).closeTime =
      (liveTracks slots).countP (fun t => t.fadeDue now) + ((liveTracks slots).countP (fun t => t.closeDue now) +
        if (site m).closeTime = 0 then (liveTracks slots).countP (fun t => t.fadeDue now) else 0) := by
  unfold passedCount
  induction liveTracks slots with
  | nil => simp
  | cons t ts ih =>
    rw [List.map_cons, List.sum_cons, ih, Track.pass_count, List.countP_cons, List.countP_cons]
    split_ifs <;> omega

/-! #### The silence deadlines (R162, R163) -/

/-- R162: an entry as common time `now` leaves it. -/
def RosterEntry.silenced (e : RosterEntry) (now : Time) : RosterEntry :=
  if e.silenceDue now then { e with state := .silent, deadline := none } else e

/-- R163: station `n` owns a mirror source, and its silence deadline is reached at `now`. -/
def State.sourceFalls (s : State) (now : Time) (n : Nat) : Bool :=
  s.ownsSource n && (s.rosterOf n).any fun e => e.silenceDue now

theorem State.sourceFalls_congr {s t : State} {n : Nat} (hr : t.rosterOf n = s.rosterOf n)
    (ht : t.tables = s.tables) (hz : t.zev.received = s.zev.received) (now : Time) :
    t.sourceFalls now n = s.sourceFalls now n := by
  simp only [State.sourceFalls, State.ownsSource, hr, ht, hz]

/-- R162, R163: the passing of one silence deadline, reached or not. -/
theorem State.silence_entry (s : State) (n : Nat) :
    (s.silence n).rosterOf n = (s.rosterOf n).map (fun e => e.silenced s.prt.time) ∧
    (∀ k, k ≠ n → (s.silence n).rosterOf k = s.rosterOf k) ∧
    (s.silence n).raised = s.raised ++ List.replicate (if s.sourceFalls s.prt.time n then 1 else 0) .evaluation := by
  cases he : s.rosterOf n with
  | none =>
    have hsame : s.silence n = s := by simp [State.silence, he]
    simp [hsame, he, State.sourceFalls]
  | some e =>
    cases hd : e.silenceDue s.prt.time
    · rw [State.silence_kept he hd]
      simp [he, RosterEntry.silenced, hd, State.sourceFalls]
    · obtain ⟨heq, hsame, hother⟩ := State.silence_due he hd
      refine ⟨by simp [hsame, RosterEntry.silenced, hd], hother, ?_⟩
      rw [heq]
      cases hs : s.ownsSource n <;> simp [State.sourceFalls, he, hd, hs]

/-- R162: the passing of silence deadlines in ascending station. -/
def State.silences (s : State) (l : List Nat) : State := l.foldl (fun s k => s.silence (k + 1)) s

theorem State.silences_rosterOf {l : List Nat} (hl : l.Nodup) (s : State) (n : Nat) :
    (s.silences l).rosterOf n =
      if ∃ k ∈ l, n = k + 1 then (s.rosterOf n).map (fun e => e.silenced s.prt.time) else s.rosterOf n := by
  induction l generalizing s with
  | nil => simp [State.silences]
  | cons k l ih =>
    obtain ⟨hk, hl⟩ := List.nodup_cons.1 hl
    obtain ⟨hsame, hother, -⟩ := s.silence_entry (k + 1)
    have htime : (s.silence (k + 1)).prt.time = s.prt.time := by
      obtain ⟨m, h⟩ := s.silence_only (k + 1)
      rw [h]
    change ((s.silence (k + 1)).silences l).rosterOf n = _
    rw [ih hl, htime]
    by_cases hn : n = k + 1
    · subst hn
      have hnot : ¬∃ j ∈ l, k + 1 = j + 1 := fun ⟨j, hj, he⟩ => hk (by
        obtain rfl : k = j := by omega
        exact hj)
      rw [if_neg hnot, hsame, if_pos ⟨k, List.mem_cons_self, rfl⟩]
    · rw [hother n hn]
      simp [hn]

theorem State.silences_raised {l : List Nat} (hl : l.Nodup) (s : State) :
    (s.silences l).raised =
      s.raised ++ List.replicate (l.countP fun k => s.sourceFalls s.prt.time (k + 1)) .evaluation := by
  induction l generalizing s with
  | nil => simp [State.silences]
  | cons k l ih =>
    obtain ⟨hk, hl⟩ := List.nodup_cons.1 hl
    obtain ⟨-, hother, hraised⟩ := s.silence_entry (k + 1)
    obtain ⟨m, honly⟩ := s.silence_only (k + 1)
    have hfalls : ∀ j ∈ l, ((s.silence (k + 1)).sourceFalls (s.silence (k + 1)).prt.time (j + 1) = true ↔
        s.sourceFalls s.prt.time (j + 1) = true) := fun j hj => by
      have hne : j + 1 ≠ k + 1 := fun h => hk (by
        obtain rfl : j = k := by omega
        exact hj)
      have htables : (s.silence (k + 1)).tables = s.tables := by rw [honly]
      have hrec : (s.silence (k + 1)).zev.received = s.zev.received := by rw [honly]
      have htime : (s.silence (k + 1)).prt.time = s.prt.time := by rw [honly]
      rw [State.sourceFalls_congr (hother _ hne) htables hrec, htime]
    change ((s.silence (k + 1)).silences l).raised = _
    rw [ih hl, hraised, List.countP_congr hfalls, List.append_assoc, List.replicate_append_replicate,
      List.countP_cons, Nat.add_comm]

/-- R162, R163: with the tracks' deadlines passed, those of silence follow. -/
theorem State.passDeadlines_eq (s : State) : s.passDeadlines = s.passTrackDeadlines.silences (List.range 32) := rfl

theorem State.passDeadlines_raised (s : State) :
    s.passDeadlines.raised = s.raised ++ passedEvents s s.prt.time := by
  have hfalls : s.passTrackDeadlines.sourceFalls s.prt.time = fun n => s.ownsSource n &&
      match s.rosterOf n with
      | some e => e.silenceDue s.prt.time
      | none => false := by
    funext n
    change s.sourceFalls s.prt.time n = _
    unfold State.sourceFalls
    cases s.rosterOf n <;> rfl
  rw [State.passDeadlines_eq, State.silences_raised List.nodup_range]
  change (s.raised ++ List.replicate (passedCount s.tracks s.prt.time (site s.tables).closeTime) _) ++
    List.replicate (List.countP (fun k => s.passTrackDeadlines.sourceFalls s.prt.time (k + 1)) _) _ = _
  rw [hfalls, passedCount_eq, List.append_assoc, List.replicate_append_replicate]
  rfl

theorem RosterEntry.silenced_of {e : RosterEntry} {now : Time} (h : EntrySilent now e) :
    e.silenced now = { e with state := .silent, deadline := none } := if_pos (RosterEntry.silenceDue_iff.2 h)

theorem RosterEntry.silenced_of_not {e : RosterEntry} {now : Time} (h : ¬EntrySilent now e) :
    e.silenced now = e := if_neg fun hd => h (RosterEntry.silenceDue_iff.1 hd)

theorem OnlyDeadlines.prt {s t : State} (h : OnlyDeadlines s t) :
    t.prt = { s.prt with roster := t.prt.roster } := by
  obtain ⟨n, h⟩ := h
  rw [h]

theorem State.passDeadlines_time (s : State) : s.passDeadlines.prt.time = s.prt.time := by
  obtain ⟨n, h⟩ := s.passDeadlines_only
  rw [h]

/-- R75, R162: every deadline that common time has reached has passed. -/
theorem State.passDeadlines_passed (s : State) : DeadlinesPassed s s.passDeadlines := by
  refine ⟨?_, fun n e he => ?_⟩
  · rw [State.passDeadlines_tracks, State.passDeadlines_time]
    exact passTracks_passed s.tables s.tracks s.prt.time
  · have hroster := State.silences_rosterOf (l := List.range 32) List.nodup_range s.passTrackDeadlines n
    rw [← State.passDeadlines_eq, State.rosterOf_congr (s := s) (t := s.passTrackDeadlines) rfl rfl, he] at hroster
    change _ = ite _ (some (e.silenced s.prt.time)) (some e) at hroster
    rw [State.passDeadlines_time, hroster]
    have hn : n ≠ 0 := (State.rosterOf_some he).1
    refine ⟨fun h32 hs => ?_, fun hs => ?_⟩
    · rw [if_pos ⟨n - 1, List.mem_range.2 (by omega), by omega⟩, RosterEntry.silenced_of hs]
    · rw [RosterEntry.silenced_of_not hs, ite_self]

/-- What the deadlines of `s` do is decided by tables, slots, roster and received records. -/
theorem DeadlinesPassed.congr {s s' t t' : State} (h : DeadlinesPassed s t) (htables : s'.tables = s.tables)
    (htracks : s'.tracks = s.tracks) (hroster : s'.prt.roster = s.prt.roster) (htime : t'.prt.time = t.prt.time)
    (htables' : t'.tables = t.tables) (htracks' : t'.tracks = t.tracks) (hroster' : t'.prt.roster = t.prt.roster) :
    DeadlinesPassed s' t' := by
  simp only [DeadlinesPassed, htables, htracks, htime, htracks', State.rosterOf_congr hroster htables,
    State.rosterOf_congr hroster' htables']
  exact h

theorem passedEvents_congr {s s' : State} (htables : s'.tables = s.tables) (htracks : s'.tracks = s.tracks)
    (hroster : s'.prt.roster = s.prt.roster) (hrec : s'.zev.received = s.zev.received) (now : Time) :
    passedEvents s' now = passedEvents s now := by
  have hows : s'.ownsSource = s.ownsSource := by
    funext n
    unfold State.ownsSource
    rw [hrec, htables]
  unfold passedEvents
  simp only [htables, htracks, hows, State.rosterOf_congr hroster htables]

/-! #### A count (R164, R86, R166, R172) -/

theorem State.raised_ite (s : State) (c : Prop) [Decidable c] (e : Instr) :
    (if c then s.raise e else s).raised = s.raised ++ if c then [e] else [] := by
  by_cases h : c <;> simp [h, State.raise]

theorem State.raiseAtCount_raised (s : State) :
    s.raiseAtCount.raised = s.raised ++ countEvents s.scs.own s.prt.time := by
  unfold State.raiseAtCount countEvents
  simp only [State.raised_ite, List.append_assoc]
  rfl

/-- R164: common time one on, with the roster that a count leaves. -/
theorem State.count_prt (s : State) :
    s.count.prt = { s.prt with time := s.prt.time + 1, roster := s.count.prt.roster } := by
  refine State.unlessHeld_cases
    (P := fun t => t.prt = { s.prt with time := s.prt.time + 1, roster := t.prt.roster }) rfl fun _ => ?_
  have hraise : (s.mapPrt fun p => { p with time := p.time + 1 }).raiseAtCount.prt =
      { s.prt with time := s.prt.time + 1 } := by
    rw [State.raiseAtCount_frame]
    rfl
  have hpass := (State.passDeadlines_only (s.mapPrt fun p => { p with time := p.time + 1 }).raiseAtCount).prt
  rw [hraise] at hpass
  exact hpass

theorem State.count_held {s : State} (h : s.pins.rstLow = true) :
    s.count = s.mapPrt fun p => { p with time := p.time + 1 } := State.unlessHeld_low (s := s.mapPrt _) h _

theorem State.count_high {s : State} (h : s.pins.rstLow = false) :
    s.count = (s.mapPrt fun p => { p with time := p.time + 1 }).raiseAtCount.passDeadlines :=
  State.unlessHeld_high (s := s.mapPrt _) h _

/-- What a count with RST high does beside moving common time. -/
theorem State.count_high_taken {s : State} (h : s.pins.rstLow = false) : DeadlinesPassed s s.count ∧
    s.count.raised = s.raised ++ countEvents s.scs.own s.count.prt.time ++ passedEvents s s.count.prt.time := by
  have htime : s.count.prt.time = s.prt.time + 1 := congrArg Prt.time s.count_prt
  rw [State.count_high h] at htime ⊢
  have hframe := State.raiseAtCount_frame (s.mapPrt fun p => { p with time := p.time + 1 })
  refine ⟨?_, ?_⟩
  · refine (State.passDeadlines_passed _).congr ?_ ?_ ?_ rfl rfl rfl rfl <;> rw [hframe] <;> rfl
  · have hraised := (s.mapPrt fun p => { p with time := p.time + 1 }).raiseAtCount.passDeadlines_raised
    have hpassed : passedEvents (s.mapPrt fun p => { p with time := p.time + 1 }).raiseAtCount
        (s.prt.time + 1) = passedEvents s (s.prt.time + 1) := by
      refine passedEvents_congr ?_ ?_ ?_ ?_ _ <;> rw [hframe] <;> rfl
    have htime' : (s.mapPrt fun p => { p with time := p.time + 1 }).raiseAtCount.prt.time = s.prt.time + 1 := by
      rw [hframe]
      rfl
    rw [htime, hraised, htime', hpassed, State.raiseAtCount_raised]
    rfl

theorem State.count_taken (s : State) : CountTaken s s.count := by
  refine ⟨State.count_high_taken, fun h => ?_⟩
  rw [State.count_held h]
  exact ⟨rfl, rfl, rfl⟩

/-! #### Slew and trim (R168, R169) -/

theorem CountTaken.congr {s s' t : State} (h : CountTaken s' t) (hpins : s'.pins = s.pins)
    (htables : s'.tables = s.tables) (htracks : s'.tracks = s.tracks) (hroster : s'.prt.roster = s.prt.roster)
    (hrec : s'.zev.received = s.zev.received) (hown : s'.scs.own = s.scs.own) (hraised : s'.raised = s.raised) :
    CountTaken s t := by
  obtain ⟨hhigh, hlow⟩ := h
  rw [hpins] at hhigh hlow
  refine ⟨fun hr => ?_, fun hr => ?_⟩
  · obtain ⟨hpassed, hevents⟩ := hhigh hr
    rw [hraised, hown, passedEvents_congr htables htracks hroster hrec] at hevents
    exact ⟨hpassed.congr htables.symm htracks.symm hroster.symm rfl rfl rfl rfl, hevents⟩
  · obtain ⟨ht, hros, hra⟩ := hlow hr
    exact ⟨ht.trans htracks, hros.trans hroster, hra.trans hraised⟩

/-- A gained count after common time's own counters have moved. -/
theorem State.count_mapPrt (s : State) {f : Prt → Prt} (hr : (f s.prt).roster = s.prt.roster) :
    CountTaken s (s.mapPrt f).count ∧
      (s.mapPrt f).count.prt = { f s.prt with time := (f s.prt).time + 1, roster := (s.mapPrt f).count.prt.roster } :=
  ⟨(State.count_taken (s.mapPrt f)).congr rfl rfl rfl hr rfl rfl rfl, State.count_prt (s.mapPrt f)⟩

/-- Settles O55: a gain is one count more, a withhold is kept. -/
theorem correctionsSpent : Obligations.CorrectionsSpent := by
  intro s
  refine ⟨s.slewStep, s.trimStep, rfl, rfl, s.slewStep_only, s.trimStep_only, fun hs => ?_, fun hs => ?_, fun hs => ?_,
    fun hs => ?_, fun hs => ?_, fun hs => ?_⟩
  · have hne : s.prt.slew ≠ 0 := by omega
    simp only [State.slewStep, hne, if_false, hs, decide_true, State.gainOrWithhold, if_true]
    exact s.count_mapPrt rfl
  · have hne : s.prt.slew ≠ 0 := by omega
    have hnot : ¬0 < s.prt.slew := by omega
    simp [State.slewStep, hne, hnot, State.gainOrWithhold, State.mapPrt]
  · simp [State.slewStep, hs]
  · have hne : s.prt.trim ≠ 0 := by omega
    simp only [State.trimStep, hne, if_false, hs, decide_true, State.gainOrWithhold, if_true]
    exact s.count_mapPrt rfl
  · have hne : s.prt.trim ≠ 0 := by omega
    have hnot : ¬0 < s.prt.trim := by omega
    simp [State.trimStep, hne, hnot, State.gainOrWithhold, State.mapPrt]
  · simp [State.trimStep, hs]

end Sys2Proof.Machine

/-! ### One millisecond of the oscillator (O3) -/

namespace Sys2Proof.Machine

/-! #### The counts of common time (R164, R168, R169) -/

/-- `t` is `s` after `n` counts of common time, RST high: each raises what it reaches, and the deadlines that it
reaches pass with it; slew, trim and withholds aside. -/
def Counted (n : Nat) (s t : State) : Prop :=
  OnlyCounts s t ∧ t.prt.time = s.prt.time + BitVec.ofNat 32 n ∧
  ∃ l, t.raised = s.raised ++ l ∧ CountsPassed n s t (l.filter fun e => decide (e = .evaluation)) ∧
    ∀ e, e ≠ .evaluation →
      (e ∈ l ↔ ∃ k, k < n ∧ e ∈ countEvents s.scs.own (s.prt.time + BitVec.ofNat 32 (k + 1)))

/-- What moves only the counters of common time makes no count. -/
theorem Counted.none {s t : State} (honly : OnlyCounts s t) (htime : t.prt.time = s.prt.time)
    (htracks : t.tracks = s.tracks) (hroster : t.prt.roster = s.prt.roster) (hraised : t.raised = s.raised) :
    Counted 0 s t :=
  ⟨honly, by simp [htime], [], by simp [hraised], ⟨htracks, hroster, rfl⟩, by simp⟩

theorem countEvents_ne_evaluation (own : Nat) (t : Time) : .evaluation ∉ countEvents own t := by
  unfold countEvents
  split_ifs <;> simp

theorem passedEvents_eq_replicate (s : State) (now : Time) : ∃ n, passedEvents s now = List.replicate n .evaluation :=
  ⟨_, rfl⟩

theorem Counted.one {s : State} (h : s.pins.rstLow = false) : Counted 1 s s.count := by
  obtain ⟨hpassed, hraised⟩ := State.count_high_taken h
  have htime : s.count.prt.time = s.prt.time + 1 := congrArg Prt.time s.count_prt
  obtain ⟨n, hn⟩ := passedEvents_eq_replicate s s.count.prt.time
  refine ⟨s.count_only, htime, countEvents s.scs.own s.count.prt.time ++ passedEvents s s.count.prt.time,
    by rw [hraised, List.append_assoc], ?_, fun e he => ?_⟩
  · refine ⟨{ s with
      tracks := s.count.tracks, prt := { s.prt with time := s.prt.time + 1, roster := s.count.prt.roster } }, [], rfl,
      hpassed.congr rfl rfl rfl htime.symm (by rw [s.count_only]) rfl rfl, ?_, rfl, rfl, rfl⟩
    have hevents : (countEvents s.scs.own s.count.prt.time).filter (fun e => decide (e = .evaluation)) = [] :=
      List.filter_eq_nil_iff.2 fun e he => by
        rw [decide_eq_true_eq]
        rintro rfl
        exact countEvents_ne_evaluation _ _ he
    have hkept : (passedEvents s s.count.prt.time).filter (fun e => decide (e = .evaluation)) =
        passedEvents s s.count.prt.time := by
      rw [hn]
      simp
    rw [List.filter_append, hevents, hkept, htime]
    exact (List.append_nil _).symm
  · rw [hn, htime]
    simp [he]

/-- A count is decided by tables, slots, common time, roster and received records. -/
theorem CountsPassed.congr {n : Nat} {s s' t t' : State} {l : List Instr} (h : CountsPassed n s t l)
    (htables : s'.tables = s.tables) (htracks : s'.tracks = s.tracks) (htime : s'.prt.time = s.prt.time)
    (hroster : s'.prt.roster = s.prt.roster) (hrec : s'.zev.received = s.zev.received)
    (htracks' : t'.tracks = t.tracks) (hroster' : t'.prt.roster = t.prt.roster) : CountsPassed n s' t' l := by
  induction n generalizing s s' l with
  | zero =>
    obtain ⟨h1, h2, h3⟩ := h
    exact ⟨htracks'.trans (h1.trans htracks.symm), hroster'.trans (h2.trans hroster.symm), h3⟩
  | succ n ih =>
    obtain ⟨u, rest, hu, hpassed, hl, hrest⟩ := h
    have hut : u.prt.time = s.prt.time + 1 := by rw [hu]
    have hutables : u.tables = s.tables := by rw [hu]
    refine ⟨{ s' with
      tracks := u.tracks, prt := { s'.prt with time := s'.prt.time + 1, roster := u.prt.roster } }, rest, rfl,
      hpassed.congr htables htracks hroster ?_ ?_ rfl rfl, ?_, ?_⟩
    · rw [hut, ← htime]
    · rw [hutables, ← htables]
    · rw [hl, passedEvents_congr htables htracks hroster hrec, hut, ← htime]
    · refine ih hrest ?_ rfl ?_ rfl ?_
      · rw [hutables, ← htables]
      · rw [hut, ← htime]
      · rw [hu]
        exact hrec

theorem CountsPassed.trans {m n : Nat} {s u t : State} {l k : List Instr} (h : CountsPassed m s u l)
    (hu : OnlyCounts s u) (htime : u.prt.time = s.prt.time + BitVec.ofNat 32 m) (hk : CountsPassed n u t k) :
    CountsPassed (m + n) s t (l ++ k) := by
  induction m generalizing s l with
  | zero =>
    obtain ⟨htracks, hroster, rfl⟩ := h
    rw [Nat.zero_add]
    refine hk.congr ?_ htracks.symm ?_ hroster.symm ?_ rfl rfl
    · rw [hu]
    · rw [htime]
      simp
    · rw [hu]
  | succ m ih =>
    obtain ⟨v, rest, hv, hpassed, rfl, hrest⟩ := h
    rw [Nat.add_right_comm]
    refine ⟨v, rest ++ k, hv, hpassed, List.append_assoc _ _ _, ih hrest ?_ ?_⟩
    · unfold OnlyCounts
      rw [hv, hu]
    · rw [htime, hv]
      simp only [Nat.add_comm m 1, BitVec.ofNat_add, BitVec.add_assoc]
      rfl

theorem Counted.trans {m n : Nat} {s u t : State} (h : Counted m s u) (k : Counted n u t) : Counted (m + n) s t := by
  obtain ⟨honly, htime, l, hl, hpassed, hevents⟩ := h
  obtain ⟨konly, ktime, l', hl', kpassed, kevents⟩ := k
  have hown : u.scs.own = s.scs.own := by rw [honly]
  refine ⟨honly.trans konly, ?_, l ++ l', by rw [hl', hl, List.append_assoc], ?_, fun e he => ?_⟩
  · rw [ktime, htime, BitVec.ofNat_add, BitVec.add_assoc]
  · rw [List.filter_append]
    exact hpassed.trans honly htime kpassed
  · rw [List.mem_append, hevents e he, kevents e he, hown, htime]
    constructor
    · rintro (⟨j, hj, hmem⟩ | ⟨j, hj, hmem⟩)
      · exact ⟨j, by omega, hmem⟩
      · refine ⟨m + j, by omega, ?_⟩
        rwa [Nat.add_assoc, BitVec.ofNat_add, ← BitVec.add_assoc]
    · rintro ⟨j, hj, hmem⟩
      by_cases hjm : j < m
      · exact .inl ⟨j, hjm, hmem⟩
      · obtain ⟨i, rfl⟩ := Nat.exists_eq_add_of_le (Nat.le_of_not_lt hjm)
        rw [Nat.add_assoc, BitVec.ofNat_add, ← BitVec.add_assoc] at hmem
        exact .inr ⟨i, by omega, hmem⟩


/-! #### Slew, trim and the count of a millisecond -/

/-- R164: a gain is a count, a withhold is owed. -/
theorem State.gainOrWithhold_prt (s : State) (gain : Bool) : (s.gainOrWithhold gain).prt = { s.prt with
    time := s.prt.time + BitVec.ofNat 32 (if gain then 1 else 0)
    withheld := s.prt.withheld + if gain then 0 else 1
    roster := (s.gainOrWithhold gain).prt.roster } := by
  cases gain
  · simp [State.gainOrWithhold, State.mapPrt]
  · exact s.count_prt

theorem Counted.gainOrWithhold {s : State} (h : s.pins.rstLow = false) (gain : Bool) :
    Counted (if gain then 1 else 0) s (s.gainOrWithhold gain) := by
  cases gain
  · exact .none rfl rfl rfl rfl rfl
  · exact .one h

/-- R168: the gains of the slew in a millisecond, and what it withholds. -/
def Prt.slewGain (p : Prt) : Nat := if p.slewActs = true ∧ 0 < p.slew then 1 else 0
def Prt.slewOwes (p : Prt) : Nat := if p.slewActs = true ∧ p.slew < 0 then 1 else 0

/-- R169: the gains of the trim in a millisecond, and what it withholds. -/
def Prt.trimGain (p : Prt) : Nat := if p.trimActs = true ∧ 0 < p.trim then 1 else 0
def Prt.trimOwes (p : Prt) : Nat := if p.trimActs = true ∧ p.trim < 0 then 1 else 0

/-- The slew's counters after a millisecond. -/
def Prt.slewed (p : Prt) : Prt :=
  { p with
    slew := if p.slewActs = true then (if 0 < p.slew then p.slew - 1 else p.slew + 1) else p.slew
    slewPhase := if p.slew = 0 then p.slewPhase else if p.slewActs = true then 0 else p.slewPhase + 1 }

/-- The trim's counter after a millisecond. -/
def Prt.trimmed (p : Prt) : Prt :=
  { p with trimPhase := if p.trim = 0 then p.trimPhase else if p.trimActs = true then 0 else p.trimPhase + 1 }

theorem Prt.slewed_of_none {p : Prt} (h : p.slew = 0) : p.slewed = p := by
  cases p
  subst h
  simp [Prt.slewed, Prt.slewActs]

theorem Prt.trimmed_of_none {p : Prt} (h : p.trim = 0) : p.trimmed = p := by
  cases p
  subst h
  simp [Prt.trimmed]

/-- R168: the slew in a millisecond: its counters move, and its gain or withhold follows where it acts. -/
theorem State.slewMs_eq (s : State) : s.slewMs =
    if s.prt.slewActs then (s.mapPrt Prt.slewed).gainOrWithhold (decide (0 < s.prt.slew)) else s.mapPrt Prt.slewed := by
  by_cases h0 : s.prt.slew = 0
  · simp [State.slewMs, h0, Prt.slewActs, Prt.slewed_of_none h0, State.mapPrt]
  · by_cases hp : 63 ≤ s.prt.slewPhase
    · have hp' : ¬s.prt.slewPhase + 1 < Config.slewMs := by simp only [Config.slewMs]; omega
      simp [State.slewMs, h0, hp', Prt.slewActs, hp, State.slewStep, Prt.slewed, State.mapPrt]
    · have hp' : s.prt.slewPhase + 1 < Config.slewMs := by simp only [Config.slewMs]; omega
      simp [State.slewMs, h0, hp', Prt.slewActs, hp, Prt.slewed, State.mapPrt]

theorem State.trimMs_eq (s : State) : s.trimMs =
    if s.prt.trimActs then (s.mapPrt Prt.trimmed).gainOrWithhold (decide (0 < s.prt.trim)) else
      s.mapPrt Prt.trimmed := by
  by_cases h0 : s.prt.trim = 0
  · simp [State.trimMs, h0, Prt.trimActs, Prt.trimmed_of_none h0, State.mapPrt]
  · by_cases hp : 65536 / s.prt.trim.natAbs ≤ s.prt.trimPhase + 1
    · have hp' : ¬s.prt.trimPhase + 1 < trimInterval s.prt.trim := Nat.not_lt.2 hp
      simp [State.trimMs, h0, hp', Prt.trimActs, hp, State.trimStep, Prt.trimmed, State.mapPrt]
    · have hp' : s.prt.trimPhase + 1 < trimInterval s.prt.trim := Nat.lt_of_not_le hp
      simp [State.trimMs, h0, hp', Prt.trimActs, hp, Prt.trimmed, State.mapPrt]

theorem State.slewMs_prt (s : State) : s.slewMs.prt = { s.prt.slewed with
    time := s.prt.time + BitVec.ofNat 32 s.prt.slewGain
    withheld := s.prt.withheld + s.prt.slewOwes
    roster := s.slewMs.prt.roster } := by
  rw [State.slewMs_eq]
  unfold Prt.slewGain Prt.slewOwes
  by_cases ha : s.prt.slewActs = true
  · have h0 : s.prt.slew ≠ 0 := by simp only [Prt.slewActs, decide_eq_true_eq] at ha; exact ha.1
    simp only [ha, if_true, true_and]
    rw [State.gainOrWithhold_prt]
    by_cases hpos : 0 < s.prt.slew
    · have hneg : ¬s.prt.slew < 0 := by omega
      simp [hpos, hneg, State.mapPrt, Prt.slewed]
    · have hneg : s.prt.slew < 0 := by omega
      simp [hpos, hneg, State.mapPrt, Prt.slewed]
  · simp [ha, State.mapPrt, Prt.slewed]

theorem State.trimMs_prt (s : State) : s.trimMs.prt = { s.prt.trimmed with
    time := s.prt.time + BitVec.ofNat 32 s.prt.trimGain
    withheld := s.prt.withheld + s.prt.trimOwes
    roster := s.trimMs.prt.roster } := by
  rw [State.trimMs_eq]
  unfold Prt.trimGain Prt.trimOwes
  by_cases ha : s.prt.trimActs = true
  · have h0 : s.prt.trim ≠ 0 := by simp only [Prt.trimActs, decide_eq_true_eq] at ha; exact ha.1
    simp only [ha, if_true, true_and]
    rw [State.gainOrWithhold_prt]
    by_cases hpos : 0 < s.prt.trim
    · have hneg : ¬s.prt.trim < 0 := by omega
      simp [hpos, hneg, State.mapPrt, Prt.trimmed]
    · have hneg : s.prt.trim < 0 := by omega
      simp [hpos, hneg, State.mapPrt, Prt.trimmed]
  · simp [ha, State.mapPrt, Prt.trimmed]

theorem Counted.slewMs {s : State} (h : s.pins.rstLow = false) : Counted s.prt.slewGain s s.slewMs := by
  rw [State.slewMs_eq]
  unfold Prt.slewGain
  have hmap : Counted 0 s (s.mapPrt Prt.slewed) := .none rfl rfl rfl rfl rfl
  by_cases ha : s.prt.slewActs = true
  · simpa [ha] using hmap.trans (.gainOrWithhold (s := s.mapPrt Prt.slewed) h (decide (0 < s.prt.slew)))
  · simpa [ha] using hmap

theorem Counted.trimMs {s : State} (h : s.pins.rstLow = false) : Counted s.prt.trimGain s s.trimMs := by
  rw [State.trimMs_eq]
  unfold Prt.trimGain
  have hmap : Counted 0 s (s.mapPrt Prt.trimmed) := .none rfl rfl rfl rfl rfl
  by_cases ha : s.prt.trimActs = true
  · simpa [ha] using hmap.trans (.gainOrWithhold (s := s.mapPrt Prt.trimmed) h (decide (0 < s.prt.trim)))
  · simpa [ha] using hmap

theorem State.countMs_zero {s : State} (h : s.prt.withheld = 0) : s.countMs = s.count := by
  unfold State.countMs
  rw [h]

/-- R164: what is left owed of a withhold taken (log 7). -/
def Prt.carried (p : Prt) : Nat := if Config.secondWithholdCarried then p.withheld - 1 else 0

theorem State.countMs_owed {s : State} (h : s.prt.withheld ≠ 0) :
    s.countMs = s.mapPrt fun p => { p with withheld := s.prt.carried } := by
  obtain ⟨n, hn⟩ := Nat.exists_eq_succ_of_ne_zero h
  unfold State.countMs Prt.carried
  rw [hn]
  rfl

theorem Counted.countMs {s : State} (h : s.pins.rstLow = false) :
    Counted (if s.prt.withheld = 0 then 1 else 0) s s.countMs := by
  by_cases h0 : s.prt.withheld = 0
  · rw [if_pos h0, State.countMs_zero h0]
    exact .one h
  · rw [if_neg h0, State.countMs_owed h0]
    exact .none rfl rfl rfl rfl rfl

theorem State.countMs_prt (s : State) : s.countMs.prt = { s.prt with
    time := s.prt.time + BitVec.ofNat 32 (if s.prt.withheld = 0 then 1 else 0)
    withheld := if s.prt.withheld = 0 then 0 else s.prt.carried
    roster := s.countMs.prt.roster } := by
  by_cases h0 : s.prt.withheld = 0
  · rw [if_pos h0, if_pos h0, State.countMs_zero h0, s.count_prt]
    simp [h0]
  · rw [if_neg h0, if_neg h0, State.countMs_owed h0]
    simp [State.mapPrt]

end Sys2Proof.Machine

/-! ### One millisecond: the line and the inputs, and the whole (O3) -/

namespace Sys2Proof.Machine

/-! #### The clock together -/

/-- The slew leaves the trim's counters as they are. -/
theorem State.slewMs_trim (s : State) :
    (s.slewMs.prt.trim = s.prt.trim ∧ s.slewMs.prt.trimPhase = s.prt.trimPhase) ∧
    s.slewMs.prt.trimActs = s.prt.trimActs ∧ s.slewMs.prt.trimGain = s.prt.trimGain ∧
    s.slewMs.prt.trimOwes = s.prt.trimOwes := by
  have htrim : s.slewMs.prt.trim = s.prt.trim ∧ s.slewMs.prt.trimPhase = s.prt.trimPhase := by
    rw [State.slewMs_prt]
    exact ⟨rfl, rfl⟩
  have hacts : s.slewMs.prt.trimActs = s.prt.trimActs := by simp only [Prt.trimActs, htrim]
  exact ⟨htrim, hacts, by simp only [Prt.trimGain, hacts, htrim], by simp only [Prt.trimOwes, hacts, htrim]⟩

/-- What is owed once slew and trim have acted. -/
theorem State.trimMs_withheld (s : State) : s.slewMs.trimMs.prt.withheld = s.prt.owes := by
  obtain ⟨-, -, -, howes⟩ := s.slewMs_trim
  rw [State.trimMs_prt, howes]
  change s.slewMs.prt.withheld + _ = _
  rw [State.slewMs_prt]
  rfl

/-- The counters of common time after slew, trim and count of a millisecond. -/
theorem State.clockMs_prt (s : State) :
    s.clockMs.prt = { s.prt.afterMs s.clockMs.prt.withheld with roster := s.clockMs.prt.roster } ∧
    s.clockMs.prt.withheld = if s.prt.owes = 0 then 0 else
      if Config.secondWithholdCarried then s.prt.owes - 1 else 0 := by
  obtain ⟨htrim, hacts, hgain, -⟩ := s.slewMs_trim
  have hwith := s.trimMs_withheld
  have hprt : s.clockMs.prt = { s.slewMs.trimMs.prt with
      time := s.slewMs.trimMs.prt.time + BitVec.ofNat 32 (if s.prt.owes = 0 then 1 else 0)
      withheld := s.clockMs.prt.withheld
      roster := s.clockMs.prt.roster } := by
    have h := State.countMs_prt s.slewMs.trimMs
    rw [hwith] at h
    change s.clockMs.prt = _ at h
    rw [h]
  refine ⟨?_, ?_⟩
  · rw [hprt, State.trimMs_prt, hgain, Prt.trimmed, htrim.1, htrim.2, hacts, State.slewMs_prt]
    simp only [Prt.afterMs, Prt.slewed, Prt.counts, Prt.gains, BitVec.ofNat_add, BitVec.add_assoc]
    rfl
  · have h := congrArg Prt.withheld (State.countMs_prt s.slewMs.trimMs)
    rw [hwith] at h
    refine h.trans ?_
    unfold Prt.carried
    rw [hwith]

/-- R164: the counts of a millisecond with RST high. -/
theorem Counted.clockMs {s : State} (h : s.pins.rstLow = false) : Counted s.prt.counts s s.clockMs := by
  have hs : s.slewMs.pins.rstLow = false := by rw [s.slewMs_only]; exact h
  have ht : s.slewMs.trimMs.pins.rstLow = false := by rw [s.slewMs.trimMs_only]; exact hs
  have hall := ((Counted.slewMs h).trans (.trimMs hs)).trans (.countMs ht)
  rw [s.slewMs_trim.2.2.1, s.trimMs_withheld] at hall
  exact hall

/-- `t` differs from `s` in common time and its counters alone. -/
def OnlyTime (s t : State) : Prop := t = { s with prt := t.prt } ∧ t.prt.roster = s.prt.roster

theorem OnlyTime.trans {s t u : State} (h : OnlyTime s t) (k : OnlyTime t u) : OnlyTime s u := by
  obtain ⟨h, hr⟩ := h
  obtain ⟨k, kr⟩ := k
  refine ⟨?_, kr.trans hr⟩
  rw [k, h]

theorem OnlyTime.mapPrt (s : State) {f : Prt → Prt} (hf : (f s.prt).roster = s.prt.roster) : OnlyTime s (s.mapPrt f) :=
  ⟨rfl, hf⟩

theorem State.gainOrWithhold_held {s : State} (h : s.pins.rstLow = true) (gain : Bool) :
    OnlyTime s (s.gainOrWithhold gain) := by
  cases gain
  · exact ⟨rfl, rfl⟩
  · unfold State.gainOrWithhold
    rw [if_pos rfl, State.count_held h]
    exact ⟨rfl, rfl⟩

/-- R176: while RST is low only common time with its counters moves. -/
theorem State.clockMs_held {s : State} (h : s.pins.rstLow = true) : OnlyTime s s.clockMs := by
  have gains : ∀ (u : State) (b : Bool) (f : Prt → Prt) (gain : Bool), u.pins.rstLow = true →
      (f u.prt).roster = u.prt.roster →
      OnlyTime u (if b then (u.mapPrt f).gainOrWithhold gain else u.mapPrt f) := fun u b f gain hu hf => by
    split
    · exact (OnlyTime.mapPrt u hf).trans (State.gainOrWithhold_held (s := u.mapPrt f) hu gain)
    · exact .mapPrt u hf
  have hslew : OnlyTime s s.slewMs := by
    rw [State.slewMs_eq]
    exact gains s _ _ _ h rfl
  have hs : s.slewMs.pins.rstLow = true := by rw [s.slewMs_only]; exact h
  have htrim : OnlyTime s.slewMs s.slewMs.trimMs := by
    rw [State.trimMs_eq]
    exact gains _ _ _ _ hs rfl
  have ht : s.slewMs.trimMs.pins.rstLow = true := by rw [s.slewMs.trimMs_only]; exact hs
  refine (hslew.trans htrim).trans ?_
  change OnlyTime _ s.slewMs.trimMs.countMs
  by_cases h0 : s.slewMs.trimMs.prt.withheld = 0
  · rw [State.countMs_zero h0, State.count_held ht]
    exact ⟨rfl, rfl⟩
  · rw [State.countMs_owed h0]
    exact ⟨rfl, rfl⟩

/-! #### The line (R122, R125) -/

/-- R122: quiet time and the wait for IDLE after a millisecond. -/
def Qlc.afterMs (q : Qlc) : Qlc :=
  { q with
    quiet := if q.busy then q.quiet else min (q.quiet + (q.quietFrac + 96) / 25) 255
    quietFrac := if q.busy then q.quietFrac else (q.quietFrac + 96) % 25
    idleIn := if q.busy && q.inFlight.isNone then q.idleIn - 96 else q.idleIn }

/-- R122, R125: what the line raises in a millisecond. -/
def Qlc.eventsMs (q : Qlc) : List Instr :=
  if q.busy then (if q.inFlight = none ∧ q.idleIn ≤ 96 then [.lineIdle] else [])
  else if ∃ h, q.holdoff = some h ∧ h.length ≤ q.afterMs.quiet then [.holdoffExpiry q.afterMs.quiet] else []

theorem Qlc.expiryDue_iff {s : State} : s.expiryDue = true ↔ ∃ h, s.qlc.holdoff = some h ∧ h.length ≤ s.qlc.quiet := by
  unfold State.expiryDue
  cases s.qlc.holdoff <;> simp

/-- R125: with no expiry waiting, the check raises one where it is due. -/
theorem State.expiryCheck_eq {s : State} (h : ∀ q, .holdoffExpiry q ∉ s.raised) : s.expiryCheck =
    { s with raised := s.raised ++ if s.expiryDue then [.holdoffExpiry s.qlc.quiet] else [] } := by
  have hnot : ∀ e ∈ s.raised, isHoldoffExpiry e = false := fun e he => by
    cases e with
    | holdoffExpiry q => exact absurd he (h q)
    | _ => rfl
  have hany : s.raised.any isHoldoffExpiry = false := List.any_eq_false.2 fun e he => by simp [hnot e he]
  have hfilter : s.raised.filter (fun e => !isHoldoffExpiry e) = s.raised :=
    List.filter_eq_self.2 fun e he => by simp [hnot e he]
  unfold State.expiryCheck
  cases hd : s.expiryDue
  · simp [hfilter]
  · simp [hany, State.raise]

theorem Qlc.afterMs_idle {q : Qlc} (h : q.busy = false) : q.afterMs =
    { q with quiet := min (q.quiet + (q.quietFrac + 96) / 25) 255, quietFrac := (q.quietFrac + 96) % 25 } := by
  simp [Qlc.afterMs, h]

theorem Qlc.afterMs_sending {q : Qlc} (h : q.busy = true) (hf : q.inFlight.isNone = false) : q.afterMs = q := by
  cases q
  simp only at h hf
  simp only [Qlc.afterMs, h, hf, if_true, Bool.and_false, Bool.false_eq_true, if_false]

theorem Qlc.afterMs_busy {q : Qlc} (h : q.busy = true) (hf : q.inFlight.isNone = true) :
    q.afterMs = { q with idleIn := q.idleIn - 96 } := by
  simp only [Qlc.afterMs, h, hf, if_true, Bool.and_true]

theorem State.quietMs_eq {s : State} (h : ∀ q, .holdoffExpiry q ∉ s.raised) : s.quietMs =
    { s with qlc := s.qlc.afterMs, raised := s.raised ++ s.qlc.eventsMs } := by
  unfold State.quietMs
  cases hb : s.qlc.busy
  · have hmap : (s.mapQlc fun q =>
        let t := q.quietFrac + Config.msQuiet
        { q with quiet := min (q.quiet + t / 25) Config.quietMax, quietFrac := t % 25 }) =
        { s with qlc := s.qlc.afterMs } := by
      rw [Qlc.afterMs_idle hb]
      rfl
    rw [if_neg Bool.false_ne_true, hmap, State.expiryCheck_eq (by exact h)]
    simp only [Qlc.eventsMs, hb, Bool.false_eq_true, if_false, Qlc.expiryDue_iff]
    rfl
  · rw [if_pos rfl]
    unfold State.busyMs Qlc.eventsMs
    cases hf : s.qlc.inFlight.isNone
    · have hsome : s.qlc.inFlight ≠ none := fun h => by simp [h] at hf
      simp [Qlc.afterMs_sending hb hf, hb, hsome]
    · have hnone : s.qlc.inFlight = none := Option.isNone_iff_eq_none.1 hf
      rw [Qlc.afterMs_busy hb hf]
      by_cases hi : s.qlc.idleIn ≤ 96
      · have hi' : ¬96 < s.qlc.idleIn := by omega
        have hz : s.qlc.idleIn - 96 = 0 := by omega
        simp [hb, hi, hi', hz, hnone, Config.msQuiet, State.mapQlc, State.raise]
      · have hi' : 96 < s.qlc.idleIn := by omega
        simp [hb, hi, hi', Config.msQuiet, State.mapQlc]

/-! #### The inputs and the window timer (R19, R26, R177, R178) -/

/-- R26: a filter after a millisecond. -/
def filteredMs (inService : Bool) (live level : Bool) (held : Nat) : Nat :=
  if inService = true ∧ live ≠ level ∧ held < 9 then held + 1 else 0

theorem filterMs_lt {inService live level : Bool} {held : Nat} (h : ¬(inService = true ∧ live ≠ level ∧ 9 ≤ held)) :
    filterMs inService live level held < Config.filterMs ∧
      filterMs inService live level held = filteredMs inService live level held := by
  unfold filterMs filteredMs Config.filterMs
  simp only [Bool.and_eq_true, decide_eq_true_eq]
  by_cases hd : inService = true ∧ live ≠ level
  · have hlt : held < 9 := by
      by_contra hge
      exact h ⟨hd.1, hd.2, by omega⟩
    have hall : inService = true ∧ live ≠ level ∧ held < 9 := ⟨hd.1, hd.2, hlt⟩
    rw [if_pos hd, if_pos hall]
    exact ⟨by omega, rfl⟩
  · have hnot : ¬(inService = true ∧ live ≠ level ∧ held < 9) := fun hall => hd ⟨hall.1, hall.2.1⟩
    rw [if_neg hd, if_neg hnot]
    exact ⟨by omega, rfl⟩

theorem filterMs_full {inService live level : Bool} {held : Nat} (h : inService = true ∧ live ≠ level ∧ 9 ≤ held) :
    ¬filterMs inService live level held < Config.filterMs ∧ filteredMs inService live level held = 0 := by
  obtain ⟨hin, hne, hge⟩ := h
  have hnot : ¬(inService = true ∧ live ≠ level ∧ held < 9) := fun hall => by omega
  unfold filterMs filteredMs Config.filterMs
  simp only [Bool.and_eq_true, decide_eq_true_eq]
  rw [if_pos ⟨hin, hne⟩, if_neg hnot]
  exact ⟨by omega, rfl⟩

/-- R26: what the SUPPR filter raises in a millisecond. -/
def State.supprEvents (s : State) : List Instr :=
  if s.sfe.supprIn = true ∧ s.pins.suppr ≠ s.sfe.supprLevel ∧ 9 ≤ s.sfe.supprFilter then
    [.supprTransition s.pins.suppr] else []

/-- R26: what the ACK filter raises in a millisecond. -/
def State.ackEvents (s : State) : List Instr :=
  if s.sfe.ackIn = true ∧ s.pins.ack ≠ s.sfe.ackLevel ∧ 9 ≤ s.sfe.ackFilter then
    [.ackTransition s.pins.ack] else []

/-- R177: what the window timer raises in a millisecond. -/
def State.windowEvents (s : State) : List Instr :=
  if ∃ n, s.scs.windowTimer = some n ∧ 29999 ≤ n then [.windowExpiry] else []

/-- R19: what the sample period raises in a millisecond. -/
def State.sampleEvents (s : State) : List Instr :=
  if 249 ≤ s.sfe.phase then [.sampleEvent s.pins.vane s.pins.lamp] else []

theorem State.supprMs_eq (s : State) : s.supprMs = { s with
    sfe := { s.sfe with
      supprFilter := filteredMs s.sfe.supprIn s.pins.suppr s.sfe.supprLevel s.sfe.supprFilter }
    raised := s.raised ++ s.supprEvents } := by
  unfold State.supprMs State.supprEvents
  by_cases hfull : s.sfe.supprIn = true ∧ s.pins.suppr ≠ s.sfe.supprLevel ∧ 9 ≤ s.sfe.supprFilter
  · obtain ⟨hge, hzero⟩ := filterMs_full hfull
    simp only
    rw [if_neg hge, if_pos hfull, hzero]
    rfl
  · obtain ⟨hlt, heq⟩ := filterMs_lt hfull
    simp only
    rw [if_pos hlt, if_neg hfull, heq, List.append_nil]
    rfl

theorem State.ackMs_eq (s : State) : s.ackMs = { s with
    sfe := { s.sfe with
      ackFilter := filteredMs s.sfe.ackIn s.pins.ack s.sfe.ackLevel s.sfe.ackFilter }
    raised := s.raised ++ s.ackEvents } := by
  unfold State.ackMs State.ackEvents
  by_cases hfull : s.sfe.ackIn = true ∧ s.pins.ack ≠ s.sfe.ackLevel ∧ 9 ≤ s.sfe.ackFilter
  · obtain ⟨hge, hzero⟩ := filterMs_full hfull
    simp only
    rw [if_neg hge, if_pos hfull, hzero]
    rfl
  · obtain ⟨hlt, heq⟩ := filterMs_lt hfull
    simp only
    rw [if_pos hlt, if_neg hfull, heq, List.append_nil]
    rfl

theorem Scs.windowTimer_none {c : Scs} (h : c.windowTimer = none) : { c with windowTimer := none } = c := by
  cases c
  simp only at h
  subst h
  rfl

theorem State.windowMs_eq (s : State) : s.windowMs = { s with
    scs := { s.scs with windowTimer := s.scs.windowTimer.map fun n => min (n + 1) 30000 }
    raised := s.raised ++ s.windowEvents } := by
  unfold State.windowMs State.windowEvents
  cases hw : s.scs.windowTimer with
  | none =>
    simp only [Option.map_none, reduceCtorEq, false_and, exists_false, if_false, List.append_nil]
    rw [Scs.windowTimer_none hw]
  | some n =>
    by_cases hn : 29999 ≤ n
    · have hn' : ¬n + 1 < Config.windowMs := by simp only [Config.windowMs]; omega
      have hmin : min (n + 1) 30000 = 30000 := by omega
      simp only [Option.map_some, hmin]
      rw [if_neg hn', if_pos ⟨n, rfl, hn⟩]
      rfl
    · have hn' : n + 1 < Config.windowMs := by simp only [Config.windowMs]; omega
      have hmin : min (n + 1) 30000 = n + 1 := by omega
      simp [hn, hn', hmin, State.mapScs]

theorem State.sselMs_eq (s : State) : s.sselMs = { s with scs := { s.scs with
    sdout := if s.pins.sselHigh then none else s.scs.sdout
    sselSeen := s.scs.sselSeen || s.pins.sselHigh } } := by
  unfold State.sselMs
  cases s.pins.sselHigh <;> simp [State.sselSeenHigh, State.mapScs]

theorem State.sampleMs_eq (s : State) : s.sampleMs = { s with
    sfe := { s.sfe with phase := if 249 ≤ s.sfe.phase then 0 else s.sfe.phase + 1 }
    raised := s.raised ++ s.sampleEvents } := by
  unfold State.sampleMs State.sampleEvents
  by_cases hp : 249 ≤ s.sfe.phase
  · have hp' : ¬s.sfe.phase + 1 < Config.samplePeriod := by simp only [Config.samplePeriod]; omega
    simp [hp, hp', State.raise, State.mapSfe]
  · have hp' : s.sfe.phase + 1 < Config.samplePeriod := by simp only [Config.samplePeriod]; omega
    simp [hp, hp', State.mapSfe]

/-- SFE after a millisecond (R19, R26). -/
def State.sfeMs (s : State) : Sfe :=
  { s.sfe with
    phase := if 249 ≤ s.sfe.phase then 0 else s.sfe.phase + 1
    supprFilter := filteredMs s.sfe.supprIn s.pins.suppr s.sfe.supprLevel s.sfe.supprFilter
    ackFilter := filteredMs s.sfe.ackIn s.pins.ack s.sfe.ackLevel s.sfe.ackFilter }

/-- SCS after a millisecond (R177, R178). -/
def State.scsMs (s : State) : Scs :=
  { s.scs with
    windowTimer := s.scs.windowTimer.map fun n => min (n + 1) 30000
    sdout := if s.pins.sselHigh then none else s.scs.sdout
    sselSeen := s.scs.sselSeen || s.pins.sselHigh }

theorem State.inputsMs_eq (s : State) : s.inputsMs = { s with
    sfe := s.sfeMs, scs := s.scsMs
    raised := s.raised ++ (s.supprEvents ++ s.ackEvents ++ s.windowEvents ++ s.sampleEvents) } := by
  unfold State.inputsMs
  rw [State.sampleMs_eq, State.sselMs_eq, State.windowMs_eq, State.ackMs_eq, State.supprMs_eq]
  simp only [List.append_assoc]
  rfl


/-! #### The whole millisecond -/

/-- What line and inputs raise in a millisecond. -/
def State.eventsMs (s : State) : List Instr :=
  s.qlc.eventsMs ++ (s.supprEvents ++ s.ackEvents ++ s.windowEvents ++ s.sampleEvents)

theorem countEvents_mem {own : Nat} {t : Time} {e : Instr} (h : e ∈ countEvents own t) :
    e ∈ [Instr.tick, .epochBoundary, .schedulePoint] := by
  unfold countEvents at h
  simp only [List.mem_append] at h
  obtain (h | h) | h := h <;> split at h <;> simp_all

/-- A count raises none but its own three events and evaluations. -/
theorem Counted.raised_mem {n : Nat} {s t : State} (h : Counted n s t) (hs : s.raised = []) {e : Instr}
    (he : e ∈ t.raised) : e ∈ [Instr.evaluation, .tick, .epochBoundary, .schedulePoint] := by
  obtain ⟨-, -, l, hl, -, hevents⟩ := h
  rw [hl, hs] at he
  by_cases hev : e = .evaluation
  · simp [hev]
  · obtain ⟨k, -, hk⟩ := (hevents e hev).1 he
    exact List.mem_cons_of_mem _ (countEvents_mem hk)

/-- R19–R177: a millisecond with RST high: the clock, then line and inputs as they stood before. -/
theorem State.millisecond_high {s : State} (h : s.pins.rstLow = false) (hs : s.raised = []) :
    s.millisecond = { s.clockMs with
      sfe := s.sfeMs, qlc := s.qlc.afterMs, scs := s.scsMs, raised := s.clockMs.raised ++ s.eventsMs } := by
  have honly := s.clockMs_only
  have hhigh : s.clockMs.pins.rstLow = false := by rw [honly]; exact h
  have hnone : ∀ q, .holdoffExpiry q ∉ s.clockMs.raised := fun q hq => by
    have := (Counted.clockMs h).raised_mem hs hq
    simp at this
  rw [State.millisecond_eq, State.unlessHeld_high hhigh, State.quietMs_eq hnone, State.inputsMs_eq]
  have hqlc : s.clockMs.qlc = s.qlc := by rw [honly]
  have hpins : s.clockMs.pins = s.pins := by rw [honly]
  have hsfe : s.clockMs.sfe = s.sfe := by rw [honly]
  have hscs : s.clockMs.scs = s.scs := by rw [honly]
  simp only [State.eventsMs, State.sfeMs, State.scsMs, State.supprEvents, State.ackEvents, State.windowEvents,
    State.sampleEvents, hqlc, hpins, hsfe, hscs, List.append_assoc]

/-- What line and inputs raise, event by event. -/
theorem State.mem_eventsMs (s : State) (e : Instr) : e ∈ s.eventsMs ↔
    (e = .lineIdle ∧ s.qlc.busy = true ∧ s.qlc.inFlight = none ∧ s.qlc.idleIn ≤ 96) ∨
    (e = .holdoffExpiry s.qlc.afterMs.quiet ∧ s.qlc.busy = false ∧
      ∃ h, s.qlc.holdoff = some h ∧ h.length ≤ s.qlc.afterMs.quiet) ∨
    (e = .supprTransition s.pins.suppr ∧ s.sfe.supprIn = true ∧ s.pins.suppr ≠ s.sfe.supprLevel ∧
      9 ≤ s.sfe.supprFilter) ∨
    (e = .ackTransition s.pins.ack ∧ s.sfe.ackIn = true ∧ s.pins.ack ≠ s.sfe.ackLevel ∧ 9 ≤ s.sfe.ackFilter) ∨
    (e = .windowExpiry ∧ ∃ n, s.scs.windowTimer = some n ∧ 29999 ≤ n) ∨
    (e = .sampleEvent s.pins.vane s.pins.lamp ∧ 249 ≤ s.sfe.phase) := by
  have hite : ∀ (c : Prop) [Decidable c] (x : Instr), e ∈ (if c then [x] else []) ↔ e = x ∧ c := fun c _ x => by
    by_cases hc : c <;> simp [hc]
  have hline : e ∈ s.qlc.eventsMs ↔
      (e = .lineIdle ∧ s.qlc.busy = true ∧ s.qlc.inFlight = none ∧ s.qlc.idleIn ≤ 96) ∨
      (e = .holdoffExpiry s.qlc.afterMs.quiet ∧ s.qlc.busy = false ∧
        ∃ h, s.qlc.holdoff = some h ∧ h.length ≤ s.qlc.afterMs.quiet) := by
    unfold Qlc.eventsMs
    cases hb : s.qlc.busy
    · rw [if_neg Bool.false_ne_true, hite]
      simp
    · rw [if_pos rfl, hite]
      simp
  unfold State.eventsMs State.supprEvents State.ackEvents State.windowEvents State.sampleEvents
  simp only [List.mem_append, hite, hline, or_assoc]

/-- R19–R178: what a millisecond with RST high raises, and the counters after it. -/
theorem State.millisecond_passes {s : State} (h : s.pins.rstLow = false) (hs : s.raised = []) :
    MillisecondPasses s.prt.counts s s.millisecond := by
  have hcounted := Counted.clockMs h
  have hother : ∀ e, e ∉ [Instr.evaluation, .tick, .epochBoundary, .schedulePoint] →
      (e ∈ s.millisecond.raised ↔ e ∈ s.eventsMs) := fun e he => by
    rw [State.millisecond_high h hs, List.mem_append]
    exact or_iff_right fun hmem => he (hcounted.raised_mem hs hmem)
  obtain ⟨honly, -, l, hl, -, hevents⟩ := hcounted
  rw [hs, List.nil_append] at hl
  have hqlc : s.millisecond.qlc = s.qlc.afterMs := by rw [State.millisecond_high h hs]
  refine ⟨fun e he => ?_, fun v lamp => ?_, fun level => ?_, fun level => ?_, ?_, fun q => ?_, ?_, ?_, hqlc, ?_, ?_⟩
  · have hne : e ≠ .evaluation := by rintro rfl; simp at he
    have hnot : e ∉ s.eventsMs := fun hmem => by
      rw [State.mem_eventsMs] at hmem
      obtain ⟨rfl, -⟩ | ⟨rfl, -⟩ | ⟨rfl, -⟩ | ⟨rfl, -⟩ | ⟨rfl, -⟩ | ⟨rfl, -⟩ := hmem <;> simp at he
    rw [State.millisecond_high h hs, List.mem_append, hl, ← hevents e hne]
    exact or_iff_left hnot
  · rw [hother _ (by simp), State.mem_eventsMs]
    simp [and_assoc]
  · rw [hother _ (by simp), State.mem_eventsMs]
    simp
  · rw [hother _ (by simp), State.mem_eventsMs]
    simp
  · rw [hother _ (by simp), State.mem_eventsMs]
    simp
  · rw [hother _ (by simp), State.mem_eventsMs, hqlc]
    simp
  · rw [hother _ (by simp), State.mem_eventsMs]
    simp
  · rw [State.millisecond_high h hs]
    rfl
  · rw [State.millisecond_high h hs]
    rfl
  · rw [State.millisecond_high h hs]
    change s.clockMs.pins = s.pins
    rw [honly]

/-- Line and inputs raise no evaluation. -/
theorem State.eventsMs_filter (s : State) : s.eventsMs.filter (fun e => decide (e = .evaluation)) = [] := by
  refine List.filter_eq_nil_iff.2 fun e he => ?_
  rw [State.mem_eventsMs] at he
  obtain ⟨rfl, -⟩ | ⟨rfl, -⟩ | ⟨rfl, -⟩ | ⟨rfl, -⟩ | ⟨rfl, -⟩ | ⟨rfl, -⟩ := he <;> simp

/-- With nothing waiting a step is one millisecond. -/
theorem step_idle {s : State} (hp : s.pending = []) (hr : s.raised = []) (hd : s.dueDeadline = none) :
    step s = .next s.millisecond := by
  simp [step, hp, idle, hd, hr]

theorem Prt.counts_still {p : Prt} (hslew : p.slew = 0) (htrim : p.trim = 0) :
    p.owes = p.withheld ∧ p.gains = 0 ∧ ∀ w, p.afterMs w =
      { p with time := p.time + BitVec.ofNat 32 (if p.withheld = 0 then 1 else 0), withheld := w } := by
  have hacts : p.slewActs = false := by simp [Prt.slewActs, hslew]
  have htacts : p.trimActs = false := by simp [Prt.trimActs, htrim]
  have howes : p.owes = p.withheld := by simp [Prt.owes, hacts, htacts]
  have hgains : p.gains = 0 := by simp [Prt.gains, hacts, htacts]
  refine ⟨howes, hgains, fun w => ?_⟩
  simp [Prt.afterMs, Prt.counts, howes, hgains, hacts, hslew, htrim]

/-- Common time and its counters after a millisecond. -/
theorem State.millisecond_prt (s : State) : s.millisecond.prt = s.clockMs.prt := by
  rw [State.millisecond_eq]
  refine State.unlessHeld_cases (P := fun t => t.prt = s.clockMs.prt) rfl fun _ => ?_
  rw [State.inputsMs_only, s.clockMs.quietMs_only]

/-- While RST is low common time with its counters is all that moves. -/
theorem State.millisecond_held {s : State} (h : s.pins.rstLow = true) :
    s.millisecond = { s with prt := s.prt.afterMs s.millisecond.prt.withheld } := by
  obtain ⟨honly, hroster⟩ := State.clockMs_held h
  have hlow : s.clockMs.pins.rstLow = true := by rw [honly]; exact h
  have hprt := s.clockMs_prt.1
  rw [hroster] at hprt
  rw [State.millisecond_eq, State.unlessHeld_low hlow]
  rw [honly]
  exact congrArg (fun p => ({ s with prt := p } : State)) hprt

/-- R164, log 7: what is owed after a millisecond. -/
theorem State.millisecond_withheld (s : State) :
    (s.prt.owes ≤ 1 → s.millisecond.prt.withheld = 0) ∧
    (2 ≤ s.prt.owes → s.millisecond.prt.withheld = 0 ∨ s.millisecond.prt.withheld = s.prt.owes - 1) := by
  rw [State.millisecond_prt, s.clockMs_prt.2]
  split_ifs
  · exact ⟨fun _ => rfl, fun _ => .inl rfl⟩
  · exact ⟨fun h => by omega, fun _ => .inr rfl⟩
  · exact ⟨fun _ => rfl, fun _ => .inl rfl⟩

/-- A millisecond that counts nothing leaves the roster. -/
theorem State.millisecond_roster {s : State} (hc : s.prt.counts = 0) : s.clockMs.prt.roster = s.prt.roster := by
  cases h : s.pins.rstLow
  · obtain ⟨-, -, l, -, hpassed, -⟩ := Counted.clockMs h
    rw [hc] at hpassed
    exact hpassed.2.1
  · exact (State.clockMs_held h).2

/-- Settles O3: the idle step is one millisecond, the clock of it counted by `Counted.clockMs`, line and inputs by
`State.millisecond_high`. -/
theorem idleCountsOne : Obligations.IdleCountsOne := by
  intro s hp hr hd
  refine ⟨s.millisecond, step_idle hp hr hd, ?_⟩
  have hprt := s.clockMs_prt.1
  rw [← State.millisecond_prt] at hprt
  obtain ⟨hw0, hw2⟩ := s.millisecond_withheld
  have honly := s.clockMs_only
  have hframe : s.millisecond.tables = s.tables ∧ s.millisecond.store = s.store ∧ s.millisecond.nq = s.nq ∧
      s.millisecond.gdu = s.gdu ∧ s.millisecond.zev = s.zev := by
    cases hrst : s.pins.rstLow
    · rw [State.millisecond_high hrst hr, honly]
      exact ⟨rfl, rfl, rfl, rfl, rfl⟩
    · rw [State.millisecond_held hrst]
      exact ⟨rfl, rfl, rfl, rfl, rfl⟩
  obtain ⟨htables, hstore, hnq, hgdu, hzev⟩ := hframe
  refine ⟨htables, hstore, hnq, hgdu, hzev, hprt, hw0, hw2, fun hslew htrim => ?_, fun hhigh => ⟨?_, ?_⟩,
    State.millisecond_held⟩
  · obtain ⟨howes, hgains, hafter⟩ := Prt.counts_still hslew htrim
    refine ⟨fun hw => ?_, fun hw => ?_⟩
    · rw [hafter, (hw0 (by omega)).trans hw.symm, if_pos hw] at hprt
      exact hprt
    · have hc : s.prt.counts = 0 := by simp [Prt.counts, howes, hgains, hw]
      have hroster := State.millisecond_roster hc
      rw [← State.millisecond_prt] at hroster
      rw [hafter, hw0 (by omega), hroster, hw] at hprt
      rw [hprt]
      simp
  · exact State.millisecond_passes hhigh hr
  · obtain ⟨-, -, l, hl, hpassed, -⟩ := Counted.clockMs hhigh
    rw [hr, List.nil_append] at hl
    have hraised : s.millisecond.raised.filter (fun e => decide (e = .evaluation)) =
        l.filter fun e => decide (e = .evaluation) := by
      rw [State.millisecond_high hhigh hr, List.filter_append, State.eventsMs_filter, List.append_nil, hl]
    rw [hraised]
    refine hpassed.congr rfl rfl rfl rfl rfl ?_ (congrArg Prt.roster s.millisecond_prt)
    rw [State.millisecond_high hhigh hr]

end Sys2Proof.Machine

/-! ### What a post does, by what the queue holds for its key (R145–R150) -/

namespace Sys2Proof.Machine

/-! #### Lists of entries -/

/-- The entry of a key, where no other has that key. -/
theorem find_of_unique {α : Type} {l : List α} {p : α → Bool} {x : α} (hx : x ∈ l) (hp : p x = true)
    (hu : ∀ y ∈ l, p y = true → y = x) : l.find? p = some x := by
  cases h : l.find? p with
  | none => exact absurd hp (List.find?_eq_none.1 h x hx)
  | some y => rw [hu y (List.mem_of_find?_eq_some h) (List.find?_some h)]

theorem State.entryOf_of_unique {s : State} {x : Entry} (hx : x ∈ s.nq.entries)
    (hu : ∀ y ∈ s.nq.entries, y.key = x.key → y = x) : s.entryOf x.key = some x :=
  find_of_unique hx (decide_eq_true rfl) fun y hy hk => hu y hy (of_decide_eq_true hk)

/-- R150: the entry that a full queue discards stands before entries in flight alone. -/
theorem lastWaiting_eq {before after : List Entry} {v : Entry} (hv : v.inFlight = false)
    (hafter : ∀ e ∈ after, e.inFlight = true) : lastWaiting (before ++ v :: after) = some v := by
  have hnone : after.reverse.find? (fun e => !e.inFlight) = none :=
    List.find?_eq_none.2 fun e he => by simp [hafter e (List.mem_reverse.1 he)]
  simp [lastWaiting, hnone, hv]

/-- An entry removed by a serial number of its own leaves all others. -/
theorem removeOrder_split {before after : List Entry} {v : Entry}
    (h : ((before ++ v :: after).map Entry.order).Nodup) :
    removeOrder v.order (before ++ v :: after) = before ++ after := by
  rw [List.map_append, List.map_cons, List.nodup_middle, List.nodup_cons] at h
  have hother : ∀ e ∈ before ++ after, e.order ≠ v.order := fun e he heq =>
    h.1 (heq ▸ List.map_append ▸ List.mem_map_of_mem he)
  have hkeep : ∀ l : List Entry, (∀ e ∈ l, e.order ≠ v.order) → removeOrder v.order l = l := fun l hl =>
    List.filter_eq_self.2 fun e he => decide_eq_true (hl e he)
  have happ : removeOrder v.order (before ++ v :: after) =
      removeOrder v.order before ++ removeOrder v.order after := by
    simp [removeOrder]
  rw [happ, hkeep before fun e he => hother e (List.mem_append_left _ he),
    hkeep after fun e he => hother e (List.mem_append_right _ he)]

/-! #### The four cases of a post -/

section
variable {s : State} {cls : Nat} {n : Notice}

/-- R145: a post of a new key into a queue with room. -/
theorem State.post_new (hd : s.dropsPost n = false) (h : s.entryOf n.key = none)
    (hr : s.nq.entries.length < Config.queueSize) : (s.post cls n).nq =
      { s.nq with entries := insertEntry (s.postEntry cls n) s.nq.entries, nextOrder := s.nq.nextOrder + 1 } := by
  rw [State.post_nq, State.takePost_of_none (s := s.takeSerial) (e := s.postEntry cls n) hd h, State.place_of_room (s := s.takeSerial) hr]
  rfl

/-- R150: a post into a full queue. -/
theorem State.place_full {e v : Entry} (hr : ¬s.nq.entries.length < Config.queueSize)
    (hv : lastWaiting s.nq.entries = some v) : s.place e =
      if e.cls < v.cls then s.setEntries (insertEntry e (removeOrder v.order s.nq.entries)) else s := by
  unfold State.place
  rw [if_neg hr, hv]

/-- R150: a post of a new key into a full queue. -/
theorem State.post_full (hd : s.dropsPost n = false) (h : s.entryOf n.key = none)
    (hr : ¬s.nq.entries.length < Config.queueSize) {v : Entry} (hv : lastWaiting s.nq.entries = some v) :
    (s.post cls n).nq.entries = if cls < v.cls then
      insertEntry (s.postEntry cls n) (removeOrder v.order s.nq.entries) else s.nq.entries := by
  rw [State.post_nq, State.takePost_of_none (s := s.takeSerial) (e := s.postEntry cls n) hd h]
  rw [State.place_full (s := s.takeSerial) (e := s.postEntry cls n) hr hv]
  change (ite (cls < v.cls) _ _ : State).nq.entries = _
  split <;> rfl

/-- R146–R148: a post folded into a waiting entry. -/
theorem State.post_waiting {x : Entry} (hd : s.dropsPost n = false) (h : s.entryOf n.key = some x)
    (hx : x.inFlight = false) : (s.post cls n).nq = { s.nq with
      entries := if s.redundant (foldNotice x n cls).notice then removeOrder x.order s.nq.entries
        else refoldEntry x (foldNotice x n cls) s.nq.entries
      nextOrder := s.nq.nextOrder + 1 } := by
  rw [State.post_nq, State.takePost_of_waiting (s := s.takeSerial) (e := s.postEntry cls n) hd h hx]
  rfl

/-- R149: a post for the key of the entry in flight. -/
theorem State.post_inFlight {x : Entry} (hd : s.dropsPost n = false) (h : s.entryOf n.key = some x)
    (hx : x.inFlight = true) : (s.post cls n).nq = { s.nq with
      held := match s.nq.held with
        | none => some (s.postEntry cls n)
        | some e => some (foldNotice e n cls)
      nextOrder := s.nq.nextOrder + 1 } := by
  have htake : s.takeSerial.takePost (s.postEntry cls n) = s.takeSerial.hold (s.postEntry cls n) := by
    unfold State.takePost
    have hd' : ¬s.takeSerial.dropsPost (s.postEntry cls n).notice = true := Bool.eq_false_iff.1 hd
    rw [if_neg hd']
    change (match s.entryOf n.key with | none => _ | some x => _) = _
    rw [h]
    exact if_pos hx
  rw [State.post_nq, htake]
  rfl

theorem postedAnew_of_insert {t : State} {es : List Entry}
    (ht : t.nq.entries = insertEntry (s.postEntry cls n) es) : PostedAnew s t n cls :=
  ⟨s.postEntry cls n, by rw [ht]; exact mem_insertEntry.2 (.inl rfl), rfl, rfl, rfl, rfl, rfl⟩

/-- R146–R148: the fold into a waiting entry touches no entry of another key. -/
theorem QueueSound.refolded (hq : QueueSound none s.qlc.inFlight s.nq) {x y : Entry} (hx : x ∈ s.nq.entries)
    (hy : y.key = x.key) (redundant : Bool) {es : List Entry}
    (hes : es = if redundant then removeOrder x.order s.nq.entries else refoldEntry x y s.nq.entries) :
    (∀ e, e.key ≠ x.key → (e ∈ es ↔ e ∈ s.nq.entries)) ∧
    (redundant = false → y ∈ es) ∧ (∀ e ∈ es, e.key = x.key → redundant = false ∧ e = y) := by
  have hremove : ∀ e, e ∈ removeOrder x.order s.nq.entries ↔ e ∈ s.nq.entries ∧ e.key ≠ x.key := fun e => by
    rw [mem_removeOrder]
    exact and_congr_right fun he => not_congr
      ⟨fun ho => congrArg Entry.key (hq.eq_of_order he hx ho), fun hk => congrArg Entry.order (hq.eq_of_key he hx hk)⟩
  have hrefold : ∀ e, e ∈ refoldEntry x y s.nq.entries ↔ e = y ∨ e ∈ s.nq.entries ∧ e.key ≠ x.key := fun e => by
    unfold refoldEntry
    split
    · rw [List.mem_map]
      constructor
      · rintro ⟨e', he', rfl⟩
        split
        · exact .inl rfl
        · next ho => exact .inr ⟨he', fun hk => ho (congrArg Entry.order (hq.eq_of_key he' hx hk))⟩
      · rintro (rfl | ⟨he, hk⟩)
        · exact ⟨x, hx, if_pos rfl⟩
        · exact ⟨e, he, if_neg fun ho => hk (congrArg Entry.key (hq.eq_of_order he hx ho))⟩
    · rw [mem_insertEntry, hremove]
  subst hes
  cases redundant
  · simp only [Bool.false_eq_true, if_false]
    refine ⟨fun e hk => ?_, fun _ => (hrefold y).2 (.inl rfl), fun e he hk => ⟨trivial, ?_⟩⟩
    · rw [hrefold]
      exact ⟨fun h => h.elim (fun heq => absurd (heq ▸ hy) hk) And.left, fun h => .inr ⟨h, hk⟩⟩
    · exact ((hrefold e).1 he).resolve_right fun h => h.2 hk
  · simp only [if_true]
    exact ⟨fun e hk => by simp [hremove, hk], nofun, fun e he hk => absurd hk ((hremove e).1 he).2⟩

/-- R147, R148: the notice that a fold leaves. -/
theorem foldNotice_update {x : Entry} {a b : SightingNotice} (hx : x.notice = .sighting a) (hb : b.form = .update)
    (cls : Nat) : foldNotice x (.sighting b) cls = { x with notice := .sighting { a with
      speed := b.speed, dust := b.dust, w := b.w, updates := b.updates } } := by
  simp [foldNotice, hx, hb]

theorem foldNotice_whole {x : Entry} {b : SightingNotice} (hk : (Notice.sighting b).key = x.key)
    (hb : b.form ≠ .update) (cls : Nat) :
    foldNotice x (.sighting b) cls = { x with notice := .sighting b, cls := cls } := by
  unfold foldNotice
  unfold Entry.key at hk
  cases hx : x.notice with
  | sighting a =>
    cases hf : b.form with
    | update => exact absurd hf hb
    | new => simp [hf]
    | join => simp [hf]
  | presence => rw [hx] at hk; cases hk
  | zone z l => rw [hx] at hk; cases hk

theorem foldNotice_zone {x : Entry} {z : Nat} {l : Level} (hk : (Notice.zone z l).key = x.key) (cls : Nat) :
    foldNotice x (.zone z l) cls = { x with notice := .zone z l, cls := cls } := by
  unfold foldNotice
  unfold Entry.key at hk
  cases hx : x.notice with
  | sighting a => rw [hx] at hk; cases hk
  | presence => rw [hx] at hk; cases hk
  | zone z' l' =>
    rw [hx] at hk
    obtain rfl : z = z' := by injection hk
    rfl

/-- R145–R147: the queue after a post for a key that waits. -/
theorem post_folded (hq : QueueSound none s.qlc.inFlight s.nq) (hd : s.dropsPost n = false) {x : Entry}
    (h : s.entryOf n.key = some x) (hx : x.inFlight = false) :
    (∀ e, e.key ≠ n.key → (e ∈ (s.post cls n).nq.entries ↔ e ∈ s.nq.entries)) ∧
    (s.post cls n).nq.held = s.nq.held ∧
    (s.redundant (foldNotice x n cls).notice = false →
      (s.post cls n).entryOf n.key = some (foldNotice x n cls)) ∧
    (s.redundant (foldNotice x n cls).notice = true → (s.post cls n).entryOf n.key = none) := by
  have hkey : x.key = n.key := State.entryOf_key h
  have hy : (foldNotice x n cls).key = x.key := foldNotice_key hkey.symm cls
  have hnq := State.post_waiting (cls := cls) hd h hx
  have hentries := congrArg Nq.entries hnq
  obtain ⟨hother, hin, hout⟩ := hq.refolded (State.entryOf_mem h) hy _ hentries
  rw [hkey] at hother hout
  refine ⟨hother, (congrArg Nq.held hnq :), fun hr => ?_, fun hr => ?_⟩
  · rw [← hkey, ← hy]
    refine State.entryOf_of_unique (hin hr) fun e he hk => (hout e he ?_).2
    rw [hk, hy, hkey]
  · refine State.entryOf_none.2 fun e he hk => ?_
    exact absurd hr (by simp [(hout e he hk).1])

end

/-- R145: the posts that no station drops. -/
theorem State.dropsPost_false {s : State} {n : Notice} (h : s.scs.station = .joining → n = .presence) :
    s.dropsPost n = false := by
  unfold State.dropsPost
  by_cases hj : s.scs.station = .joining
  · simp [h hj]
  · simp [hj]

/-- R145, R150: a post of a new key into a full queue, by the entry that may be discarded. -/
theorem post_full_cases {s : State} {n : Notice} {cls : Nat} (hq : QueueSound none s.qlc.inFlight s.nq)
    (hd : s.dropsPost n = false) (hkey : s.entryOf n.key = none) (hlen : s.nq.entries.length = 8)
    {before after : List Entry} {v : Entry} (hsplit : s.nq.entries = before ++ v :: after) (hv : v.inFlight = false)
    (hafter : ∀ e ∈ after, e.inFlight = true) :
    (cls < v.cls → PostedAnew s (s.post cls n) n cls ∧ v ∉ (s.post cls n).nq.entries ∧
      (s.post cls n).nq.entries.length = 8 ∧ ∀ e ∈ s.nq.entries, e ≠ v → e ∈ (s.post cls n).nq.entries) ∧
    (v.cls ≤ cls → (s.post cls n).nq.entries = s.nq.entries) := by
  have hfull : ¬s.nq.entries.length < Config.queueSize := by rw [hlen]; decide
  have hpost := State.post_full (cls := cls) hd hkey hfull (hsplit ▸ lastWaiting_eq hv hafter)
  have hmem : v ∈ s.nq.entries := by rw [hsplit]; simp
  have hremoved : removeOrder v.order s.nq.entries = before ++ after := by
    rw [hsplit]
    exact removeOrder_split (hsplit ▸ hq.orders)
  refine ⟨fun hlt => ?_, fun hle => ?_⟩
  · rw [if_pos hlt] at hpost
    refine ⟨postedAnew_of_insert hpost, fun hvt => ?_, ?_, fun e he hne => ?_⟩
    · rw [hpost, mem_insertEntry] at hvt
      obtain heq | hvt := hvt
      · have hserial := (hq.serials v hmem).1
        rw [heq] at hserial
        exact lt_irrefl _ hserial
      · exact (mem_removeOrder.1 hvt).2 rfl
    · rw [hpost, insertEntry_length, hremoved]
      rw [hsplit, List.length_append, List.length_cons] at hlen
      rw [List.length_append]
      omega
    · rw [hpost, mem_insertEntry, hremoved]
      rw [hsplit, List.mem_append, List.mem_cons] at he
      rw [List.mem_append]
      tauto
  · rw [hpost, if_neg (by omega)]

/-- R149: a post for the key in flight, by the held post. -/
theorem post_held_cases {s : State} {n : Notice} {cls : Nat} (hq : QueueSound none s.qlc.inFlight s.nq)
    (hd : s.dropsPost n = false) {x : Entry} (hx : s.entryOf n.key = some x) (hf : x.inFlight = true) :
    (s.post cls n).nq.entries = s.nq.entries ∧
    (s.nq.held = none → (s.post cls n).nq.held = some (s.postEntry cls n)) ∧
    ∀ h, s.nq.held = some h → h.key = n.key ∧ (s.post cls n).nq.held = some (foldNotice h n cls) := by
  have hnq := State.post_inFlight (cls := cls) hd hx hf
  refine ⟨(congrArg Nq.entries hnq :), fun hnone => ?_, fun h hh => ⟨?_, ?_⟩⟩
  · rw [hnq, hnone]
  · have hsent := (hq.flight x (State.entryOf_mem hx)).1 hf
    rw [State.entryOf_key hx] at hsent
    exact Option.some.inj ((hq.held h hh).1.symm.trans hsent)
  · rw [hnq, hh]

/-- R145–R147, R149, R150: what a post does, case by case. -/
theorem post_cases (s : State) (n : Notice) (cls : Nat) (hinv : QueueInv s)
    (hjoin : s.scs.station = .joining → n = .presence) :
    let t := s.post cls n
    (s.entryOf n.key = none → s.nq.entries.length < 8 →
      PostedAnew s t n cls ∧ t.nq.entries.length = s.nq.entries.length + 1 ∧
      ∀ e ∈ s.nq.entries, e ∈ t.nq.entries) ∧
    (s.entryOf n.key = none → s.nq.entries.length = 8 → ∀ before after v,
      s.nq.entries = before ++ v :: after → v.inFlight = false → (∀ e ∈ after, e.inFlight = true) →
      (cls < v.cls → PostedAnew s t n cls ∧ v ∉ t.nq.entries ∧ t.nq.entries.length = 8 ∧
        ∀ e ∈ s.nq.entries, e ≠ v → e ∈ t.nq.entries) ∧
      (v.cls ≤ cls → t.nq.entries = s.nq.entries)) ∧
    (∀ x, s.entryOf n.key = some x → x.inFlight = false →
      (∀ e, e.key ≠ n.key → (e ∈ t.nq.entries ↔ e ∈ s.nq.entries)) ∧ t.nq.held = s.nq.held ∧
      (∀ a b, x.notice = .sighting a → n = .sighting b → b.form = .update →
        t.entryOf n.key = some { x with notice := .sighting { a with
          speed := b.speed, dust := b.dust, w := b.w, updates := b.updates } }) ∧
      (∀ b, n = .sighting b → b.form ≠ .update →
        t.entryOf n.key = some { x with notice := n, cls := cls }) ∧
      (∀ z l, n = .zone z l →
        (s.announced z = some l → t.entryOf n.key = none) ∧
        (s.announced z ≠ some l → t.entryOf n.key = some { x with notice := n, cls := cls }))) ∧
    (∀ x, s.entryOf n.key = some x → x.inFlight = true → t.nq.entries = s.nq.entries ∧
      (s.nq.held = none → ∃ h, t.nq.held = some h ∧ h.notice = n ∧ h.cls = cls ∧
        h.postTime = s.prt.time ∧ h.attempts = 0 ∧ h.inFlight = false) ∧
      (∀ h, s.nq.held = some h →
        (n = .presence → t.nq.held = some h) ∧
        (∀ a b, h.notice = .sighting a → n = .sighting b → b.form = .update →
          t.nq.held = some { h with notice := .sighting { a with
            speed := b.speed, dust := b.dust, w := b.w, updates := b.updates } }) ∧
        (∀ b, n = .sighting b → b.form ≠ .update →
          t.nq.held = some { h with notice := n, cls := cls }) ∧
        (∀ z l, n = .zone z l → t.nq.held = some { h with notice := n, cls := cls }))) := by
  have hq := (queueInv_iff.1 hinv).1
  have hd := State.dropsPost_false hjoin
  refine ⟨fun hkey hroom => ?_, fun hkey hlen _ _ _ => post_full_cases hq hd hkey hlen, fun x hx hf => ?_,
    fun x hx hf => ?_⟩
  · have hnq := congrArg Nq.entries (State.post_new (cls := cls) hd hkey hroom)
    refine ⟨postedAnew_of_insert hnq, ?_, fun e he => ?_⟩
    · rw [hnq, insertEntry_length]
    · rw [hnq]
      exact mem_insertEntry.2 (.inr he)
  · obtain ⟨hother, hheld, hkept, hgone⟩ := post_folded (cls := cls) hq hd hx hf
    have hk : n.key = x.key := (State.entryOf_key hx).symm
    refine ⟨hother, hheld, fun a b ha hn hb => ?_, fun b hn hb => ?_, fun z l hn => ⟨fun hl => ?_, fun hl => ?_⟩⟩
    · subst hn
      rw [foldNotice_update ha hb] at hkept
      exact hkept rfl
    · subst hn
      rw [foldNotice_whole hk hb] at hkept
      exact hkept rfl
    · subst hn
      rw [foldNotice_zone hk] at hgone
      exact hgone (decide_eq_true hl)
    · subst hn
      rw [foldNotice_zone hk] at hkept
      exact hkept (decide_eq_false hl)
  · obtain ⟨hentries, hnone, hsome⟩ := post_held_cases (cls := cls) hq hd hx hf
    refine ⟨hentries, fun hh => ⟨_, hnone hh, rfl, rfl, rfl, rfl, rfl⟩, fun h hh => ?_⟩
    obtain ⟨hk, hfold⟩ := hsome h hh
    refine ⟨fun hn => ?_, fun a b ha hn hb => ?_, fun b hn hb => ?_, fun z l hn => ?_⟩
    · subst hn
      rw [hfold, foldNotice_presence]
    · subst hn
      rw [hfold, foldNotice_update ha hb]
    · subst hn
      rw [hfold, foldNotice_whole hk.symm hb]
    · subst hn
      rw [hfold, foldNotice_zone hk.symm]

end Sys2Proof.Machine

/-! ### The ZONE notices of several zones (R117, R118) and O44 -/

namespace Sys2Proof.Machine

/-! #### Posts of several zones in ascending order -/

/-- R117, R118: the posts of the zones that `g` picks, each with the class and the level that `g` gives. -/
def State.postZones (s : State) (g : ZoneState → Option (Nat × Level)) (zs : List ZoneState) : State :=
  zs.foldl (fun s z => match g z with
    | none => s
    | some p => s.post p.1 (.zone z.zone p.2)) s

/-- The entry of the post for zone `zone`, `i` posts having been made before it. -/
def State.zoneEntry (s : State) (i : Nat) (zone : Nat) (p : Nat × Level) : Entry :=
  { s.postEntry p.1 (.zone zone p.2) with order := s.nq.nextOrder + i }

theorem State.postZones_nil (s : State) (g : ZoneState → Option (Nat × Level)) : s.postZones g [] = s := rfl

theorem State.postZones_cons_none (s : State) {g : ZoneState → Option (Nat × Level)} {z : ZoneState} (h : g z = none)
    (zs : List ZoneState) : s.postZones g (z :: zs) = s.postZones g zs := by
  simp [State.postZones, h]

theorem State.postZones_cons_some (s : State) {g : ZoneState → Option (Nat × Level)} {z : ZoneState} {p : Nat × Level}
    (h : g z = some p) (zs : List ZoneState) :
    s.postZones g (z :: zs) = (s.post p.1 (.zone z.zone p.2)).postZones g zs := by
  simp [State.postZones, h]

/-- The entries after the posts of several zones: those before, and one for each zone picked. -/
theorem State.mem_postZones {s : State} {g : ZoneState → Option (Nat × Level)} {zs : List ZoneState}
    (hs : s.scs.station ≠ .joining) (hz : (zs.map (·.zone)).Nodup)
    (hnew : ∀ z ∈ zs, s.entryOf (.zone z.zone) = none) (hroom : s.nq.entries.length + zs.length ≤ 8) (e : Entry) :
    e ∈ (s.postZones g zs).nq.entries ↔ e ∈ s.nq.entries ∨ ∃ (k : Nat) (z : ZoneState) (p : Nat × Level),
      zs[k]? = some z ∧ g z = some p ∧ e = s.zoneEntry ((zs.take k).countP fun y => (g y).isSome) z.zone p := by
  induction zs generalizing s with
  | nil => simp [State.postZones]
  | cons z zs ih =>
    obtain ⟨hzfresh, hz⟩ := List.nodup_cons.1 hz
    rw [List.length_cons] at hroom
    cases hg : g z with
    | none =>
      rw [State.postZones_cons_none s hg, ih hs hz (fun y hy => hnew y (List.mem_cons_of_mem _ hy)) (by omega)]
      refine or_congr_right ⟨?_, ?_⟩
      · rintro ⟨k, y, p, hk, hp, rfl⟩
        exact ⟨k + 1, y, p, hk, hp, by simp [hg]⟩
      · rintro ⟨k, y, p, hk, hp, rfl⟩
        cases k with
        | zero =>
          obtain rfl : z = y := Option.some.inj hk
          exact nomatch hg.symm.trans hp
        | succ k => exact ⟨k, y, p, hk, hp, by simp [hg]⟩
    | some p0 =>
      rw [State.postZones_cons_some s hg]
      have hd : s.dropsPost (.zone z.zone p0.2) = false := State.dropsPost_false fun h => absurd h hs
      have hkey : s.entryOf (Notice.zone z.zone p0.2).key = none := hnew z List.mem_cons_self
      have hroom8 : s.nq.entries.length < Config.queueSize := by simp only [Config.queueSize]; omega
      have hnq := State.post_new (cls := p0.1) hd hkey hroom8
      have hposts := s.post_only p0.1 (.zone z.zone p0.2)
      generalize s.post p0.1 (.zone z.zone p0.2) = s' at hnq hposts
      have hmem : ∀ x, x ∈ s'.nq.entries ↔ x = s.zoneEntry 0 z.zone p0 ∨ x ∈ s.nq.entries := fun x => by
        rw [hnq]
        exact mem_insertEntry
      have hentry : ∀ i y (p : Nat × Level), s'.zoneEntry i y p = s.zoneEntry (i + 1) y p := fun i y p => by
        simp only [State.zoneEntry, State.postEntry, State.now, hposts.prt, hnq]
        rw [Nat.add_assoc, Nat.add_comm 1 i]
      have hlen : s'.nq.entries.length = s.nq.entries.length + 1 := by
        rw [hnq]
        exact insertEntry_length _ _
      rw [ih (by rw [hposts.scs]; exact hs) hz (fun y hy => ?_) (by omega), hmem, or_assoc]
      · constructor
        · rintro (rfl | he | ⟨k, y, p, hk, hp, rfl⟩)
          · exact .inr ⟨0, z, p0, rfl, hg, rfl⟩
          · exact .inl he
          · refine .inr ⟨k + 1, y, p, hk, hp, ?_⟩
            rw [hentry, List.take_succ_cons, List.countP_cons, hg]
            rfl
        · rintro (he | ⟨k, y, p, hk, hp, rfl⟩)
          · exact .inr (.inl he)
          · cases k with
            | zero =>
              obtain rfl : z = y := Option.some.inj hk
              obtain rfl : p0 = p := Option.some.inj (hg.symm.trans hp)
              exact .inl rfl
            | succ k =>
              refine .inr (.inr ⟨k, y, p, hk, hp, ?_⟩)
              rw [hentry, List.take_succ_cons, List.countP_cons, hg]
              rfl
      · refine State.entryOf_none.2 fun x hx => ?_
        obtain rfl | hx := (hmem x).1 hx
        · intro hk
          have hzone : z.zone = y.zone := by injection hk
          exact hzfresh (List.mem_map.2 ⟨y, hy, hzone.symm⟩)
        · exact State.entryOf_none.1 (hnew y (List.mem_cons_of_mem _ hy)) x hx

/-- The queue after the posts of several zones, zone by zone. -/
theorem State.postZones_entries {s : State} {g : ZoneState → Option (Nat × Level)} {zs : List ZoneState}
    (hs : s.scs.station ≠ .joining) (hz : (zs.map (·.zone)).Nodup)
    (hnew : ∀ z ∈ zs, s.entryOf (.zone z.zone) = none) (hroom : s.nq.entries.length + zs.length ≤ 8)
    {k : Nat} {z : ZoneState} (hk : zs[k]? = some z) :
    (g z = none → (s.postZones g zs).entryOf (.zone z.zone) = none) ∧
    ∀ p, g z = some p → (s.postZones g zs).entryOf (.zone z.zone) =
      some (s.zoneEntry ((zs.take k).countP fun y => (g y).isSome) z.zone p) := by
  have hzone : ∀ (j : Nat) (y : ZoneState), zs[j]? = some y → y.zone = z.zone → j = k ∧ y = z := fun j y hj hy => by
    have hjlt : j < (zs.map (·.zone)).length := by
      rw [List.length_map]
      exact (List.getElem?_eq_some_iff.1 hj).1
    have hjk : j = k := (List.getElem?_inj hjlt hz).1 (by simp [hj, hk, hy])
    subst hjk
    exact ⟨rfl, Option.some.inj (hj.symm.trans hk)⟩
  have hmem := fun e => State.mem_postZones (g := g) hs hz hnew hroom e
  have hold : ∀ e ∈ s.nq.entries, e.key ≠ .zone z.zone :=
    State.entryOf_none.1 (hnew z (List.mem_of_getElem? hk))
  refine ⟨fun hg => State.entryOf_none.2 fun e he hkey => ?_, fun p hp => ?_⟩
  · obtain he | ⟨j, y, p, hj, hp, rfl⟩ := (hmem e).1 he
    · exact hold e he hkey
    · have hy : y.zone = z.zone := by injection hkey
      obtain ⟨-, rfl⟩ := hzone j y hj hy
      exact nomatch hg.symm.trans hp
  · refine State.entryOf_of_unique ((hmem _).2 (.inr ⟨k, z, p, hk, hp, rfl⟩)) fun e he hkey => ?_
    obtain he | ⟨j, y, q, hj, hq, rfl⟩ := (hmem e).1 he
    · exact absurd hkey (hold e he)
    · have hy : y.zone = z.zone := by injection hkey
      obtain ⟨rfl, rfl⟩ := hzone j y hj hy
      obtain rfl : p = q := Option.some.inj (hp.symm.trans hq)
      rfl


/-- The serial numbers of the posts rise with the zones. -/
theorem countP_take_lt {α : Type} {l : List α} {p : α → Bool} {j k : Nat} (hjk : j < k) {y : α} (hj : l[j]? = some y)
    (hy : p y = true) : (l.take j).countP p < (l.take k).countP p := by
  obtain ⟨hlt, hget⟩ := List.getElem?_eq_some_iff.1 hj
  have hstep : (l.take (j + 1)).countP p = (l.take j).countP p + 1 := by
    rw [List.take_succ_eq_append_getElem hlt, List.countP_append, hget, List.countP_singleton, if_pos hy]
  have hmono : (l.take (j + 1)).countP p ≤ (l.take k).countP p :=
    (List.take_prefix_take_left hjk).sublist.countP_le
  omega

/-! #### The ZONE notices of an evaluation (R117) -/

/-- R117: the class and level of the notice of a zone that `f` takes on, where its level changes. -/
def changeOf (f : ZoneState → ZoneState) (z : ZoneState) : Option (Nat × Level) :=
  if z.level = (f z).level then none else some (zoneClass z.level (f z).level, (f z).level)

theorem State.postChanges_eq {f : ZoneState → ZoneState} (hf : ∀ z, (f z).zone = z.zone) (s : State)
    (zs : List ZoneState) : s.postChanges zs (zs.map f) = s.postZones (changeOf f) zs := by
  induction zs generalizing s with
  | nil => rfl
  | cons z zs ih =>
    rw [List.map_cons]
    unfold State.postChanges
    simp only [ih, hf]
    by_cases hl : z.level = (f z).level
    · rw [if_pos hl, State.postZones_cons_none s (if_pos hl)]
    · rw [if_neg hl, State.postZones_cons_some s (p := (zoneClass z.level (f z).level, (f z).level)) (if_neg hl)]

theorem zoneClass_of_ne {before after : Level} (h : after ≠ before) : zoneClass before after =
    if after.toNat < before.toNat then 4 else if after = .alarm then 0 else 2 := by
  have hne : after.toNat ≠ before.toNat := fun heq => h (Level.toNat_inj heq)
  unfold zoneClass
  by_cases hlt : before.toNat < after.toNat
  · rw [if_pos hlt, if_neg (c := after.toNat < before.toNat) (by omega)]
  · rw [if_neg hlt, if_pos (by omega)]

/-- R86, R84: a TICK or an EVALUATION is an evaluation. -/
theorem exec_evaluation {c : Instr} {s : State} (hc : c ∈ [Instr.tick, .evaluation]) (h : s.pins.rstLow = false) :
    ∃ r, exec c s = .next ({ s with raised := r } : State).evaluate := by
  simp only [List.mem_cons, List.not_mem_nil, or_false] at hc
  obtain rfl | rfl := hc
  · exact ⟨_, congrArg _ (State.unlessHeld_high (s := s.takeEvent fun e => decide (e = .tick)) h _)⟩
  · exact ⟨_, congrArg _ (State.unlessHeld_high (s := s.takeEvent fun e => decide (e = .evaluation)) h _)⟩

theorem State.evalZone_congr {s t : State} (htables : t.tables = s.tables) (htracks : t.tracks = s.tracks)
    (hprt : t.prt = s.prt) (hzev : t.zev = s.zev) : t.evalZone = s.evalZone := by
  funext z
  unfold State.evalZone State.mirrorPart State.sourceGood State.rosterState State.rosterOf State.receivedOf State.now
  rw [htables, htracks, hprt, hzev]

/-- R84, R100: an evaluation of a station that takes part: every zone evaluated, and in OPERATING the notices. -/
theorem State.evaluate_active {s : State} (h : s.active = true) (r : List Instr) :
    ({ s with raised := r } : State).evaluate =
      if s.scs.station = .operating then
        ({ s with raised := r, zev := { s.zev with zones := s.zev.zones.map s.evalZone } } : State).postZones
          (changeOf s.evalZone) s.zev.zones
      else { s with raised := r, zev := { s.zev with zones := s.zev.zones.map s.evalZone } } := by
  have hc : ({ s with raised := r } : State).evalZone = s.evalZone := State.evalZone_congr rfl rfl rfl rfl
  unfold State.evaluate
  rw [if_pos (show ({ s with raised := r } : State).active = true from h), hc]
  simp only
  rw [← State.postChanges_eq s.evalZone_zone]
  rfl

theorem State.active_of_operating {s : State} (h : s.scs.station = .operating) : s.active = true := by
  simp [State.active, h]

theorem State.evaluate_operating {s : State} (h : s.scs.station = .operating) (r : List Instr) :
    ({ s with raised := r } : State).evaluate =
      ({ s with raised := r, zev := { s.zev with zones := s.zev.zones.map s.evalZone } } : State).postZones
        (changeOf s.evalZone) s.zev.zones := by
  rw [State.evaluate_active (State.active_of_operating h), if_pos h]

theorem State.postZones_only (s : State) (g : ZoneState → Option (Nat × Level)) (zs : List ZoneState) :
    OnlyPosts s (s.postZones g zs) := by
  induction zs generalizing s with
  | nil => exact .refl s
  | cons z zs ih =>
    cases hg : g z with
    | none =>
      rw [State.postZones_cons_none s hg]
      exact ih s
    | some p =>
      rw [State.postZones_cons_some s hg]
      exact (s.post_only _ _).trans (ih _)

/-- R117: the single zone of a station. -/
theorem evaluation_single {c : Instr} {s : State} {z : ZoneState} (hc : c ∈ [Instr.tick, .evaluation])
    (h : s.pins.rstLow = false) (hs : s.scs.station = .operating) (hz : s.zev.zones = [z]) :
    ∃ t z', exec c s = .next t ∧ t.zev.zones = [z'] ∧
      (z'.level = z.level → t.nq = s.nq ∧ t.qlc = s.qlc) ∧
      (z'.level ≠ z.level → s.entryOf (.zone z.zone) = none → s.nq.entries.length < 8 →
        t.nq.entries.length = s.nq.entries.length + 1 ∧ (∀ e ∈ s.nq.entries, e ∈ t.nq.entries) ∧
        PostedAnew s t (.zone z.zone z'.level)
          (if z'.level.toNat < z.level.toNat then 4 else if z'.level = .alarm then 0 else 2)) := by
  obtain ⟨r, hexec⟩ := exec_evaluation hc h
  rw [State.evaluate_operating hs, hz] at hexec
  generalize hu : ({ s with raised := r, zev := { s.zev with zones := [z].map s.evalZone } } : State) = u at hexec
  have hnq : u.nq = s.nq := by rw [← hu]
  have hzones : u.zev.zones = [s.evalZone z] := by rw [← hu]; rfl
  refine ⟨_, s.evalZone z, hexec, ?_, fun hl => ?_, fun hl hkey hroom => ?_⟩
  · rw [(u.postZones_only _ _).zev, hzones]
  · rw [State.postZones_cons_none u (if_pos hl.symm)]
    change u.nq = _ ∧ u.qlc = _
    rw [← hu]
    exact ⟨rfl, rfl⟩
  · rw [State.postZones_cons_some u (if_neg (Ne.symm hl)), ← zoneClass_of_ne hl]
    have hstation : u.scs.station = .operating := by rw [← hu]; exact hs
    have hd : u.dropsPost (.zone z.zone (s.evalZone z).level) = false :=
      State.dropsPost_false fun hj => nomatch hstation.symm.trans hj
    have hkey' : u.entryOf (Notice.zone z.zone (s.evalZone z).level).key = none := by
      unfold State.entryOf
      rw [hnq]
      exact hkey
    have hpost := congrArg Nq.entries (State.post_new (cls := zoneClass z.level (s.evalZone z).level) hd hkey'
      (by rw [hnq]; exact hroom))
    rw [State.postZones_nil]
    refine ⟨?_, fun e he => ?_, ?_⟩
    · rw [hpost, insertEntry_length, hnq]
    · rw [hpost, hnq]
      exact mem_insertEntry.2 (.inr he)
    · have hnew := postedAnew_of_insert hpost
      unfold PostedAnew at hnew ⊢
      have hprt : u.prt = s.prt := by rw [← hu]
      rw [hprt] at hnew
      exact hnew

/-- R117: the zones of a station of several, with room for the notices of them all. -/
theorem evaluation_several {c : Instr} {s : State} (hc : c ∈ [Instr.tick, .evaluation])
    (h : s.pins.rstLow = false) (hs : s.scs.station = .operating)
    (hz : (s.zev.zones.map (·.zone)).Pairwise (· < ·)) (hroom : s.nq.entries.length + s.zev.zones.length ≤ 8)
    (hnew : ∀ z ∈ s.zev.zones, s.entryOf (.zone z.zone) = none) :
    ∃ t, exec c s = .next t ∧ (∀ e ∈ s.nq.entries, e ∈ t.nq.entries) ∧
      (∀ e ∈ t.nq.entries, e ∈ s.nq.entries ∨ ∃ z ∈ t.zev.zones, e.notice = .zone z.zone z.level) ∧
      ∀ (k : Nat) (z z' : ZoneState), s.zev.zones[k]? = some z → t.zev.zones[k]? = some z' →
        (z'.level = z.level → t.entryOf (.zone z.zone) = none) ∧
        (z'.level ≠ z.level → ∃ e, t.entryOf (.zone z.zone) = some e ∧
          e.notice = .zone z.zone z'.level ∧
          e.cls = (if z'.level.toNat < z.level.toNat then 4 else if z'.level = .alarm then 0 else 2) ∧
          e.postTime = s.prt.time ∧ e.attempts = 0 ∧ e.inFlight = false ∧
          ∀ (j : Nat) (y y' : ZoneState), j < k → s.zev.zones[j]? = some y →
            t.zev.zones[j]? = some y' → y'.level ≠ y.level →
            ∃ d, t.entryOf (.zone y.zone) = some d ∧ d.order < e.order) := by
  obtain ⟨r, hexec⟩ := exec_evaluation hc h
  rw [State.evaluate_operating hs] at hexec
  generalize hu : ({ s with raised := r, zev := { s.zev with zones := s.zev.zones.map s.evalZone } } : State) = u
    at hexec
  have hnq : u.nq = s.nq := by rw [← hu]
  have hzones : u.zev.zones = s.zev.zones.map s.evalZone := by rw [← hu]
  have hprt : u.prt = s.prt := by rw [← hu]
  have hstation : u.scs.station ≠ .joining := by
    rw [← hu]
    change s.scs.station ≠ _
    rw [hs]
    exact nofun
  have hnodup : (s.zev.zones.map (·.zone)).Nodup := hz.imp fun hlt => hlt.ne
  have hnew' : ∀ z ∈ s.zev.zones, u.entryOf (.zone z.zone) = none := fun z hmem => by
    unfold State.entryOf
    rw [hnq]
    exact hnew z hmem
  have hroom' : u.nq.entries.length + s.zev.zones.length ≤ 8 := by rw [hnq]; exact hroom
  have hmem := fun e => State.mem_postZones (g := changeOf s.evalZone) hstation hnodup hnew' hroom' e
  have hentries := fun {k : Nat} {z : ZoneState} (hk : s.zev.zones[k]? = some z) =>
    State.postZones_entries (g := changeOf s.evalZone) hstation hnodup hnew' hroom' hk
  have htzones : (u.postZones (changeOf s.evalZone) s.zev.zones).zev.zones = s.zev.zones.map s.evalZone := by
    rw [(u.postZones_only _ _).zev, hzones]
  have hchanged : ∀ {z : ZoneState}, (s.evalZone z).level ≠ z.level → changeOf s.evalZone z =
      some (zoneClass z.level (s.evalZone z).level, (s.evalZone z).level) := fun hl => if_neg (Ne.symm hl)
  have hat : ∀ {k : Nat} {z z' : ZoneState}, s.zev.zones[k]? = some z →
      (u.postZones (changeOf s.evalZone) s.zev.zones).zev.zones[k]? = some z' → z' = s.evalZone z :=
    fun hk hk' => by
      rw [htzones, List.getElem?_map, hk] at hk'
      exact (Option.some.inj hk').symm
  refine ⟨_, hexec, fun e he => (hmem e).2 (.inl (hnq ▸ he)), fun e he => ?_, fun k z z' hk hk' => ?_⟩
  · obtain he | ⟨k, z, p, hk, hp, rfl⟩ := (hmem e).1 he
    · exact .inl (hnq ▸ he)
    · refine .inr ⟨s.evalZone z, ?_, ?_⟩
      · rw [htzones]
        exact List.mem_map_of_mem (List.mem_of_getElem? hk)
      · rw [State.evalZone_zone]
        unfold changeOf at hp
        split at hp
        · cases hp
        · obtain rfl := Option.some.inj hp
          rfl
  · obtain rfl := hat hk hk'
    refine ⟨fun hl => (hentries hk).1 (if_pos hl.symm), fun hl => ⟨_, (hentries hk).2 _ (hchanged hl), rfl,
      zoneClass_of_ne hl, congrArg Prt.time hprt, rfl, rfl, fun j y y' hjk hj hj' hyl => ?_⟩⟩
    obtain rfl := hat hj hj'
    refine ⟨_, (hentries hj).2 _ (hchanged hyl), Nat.add_lt_add_left (countP_take_lt hjk hj ?_) _⟩
    rw [hchanged hyl]
    rfl

/-- Settles O44: the notices of one zone, those of several (`State.postZones`), and a post of any kind. -/
theorem zoneNoticePosted : Obligations.ZoneNoticePosted :=
  ⟨fun _ _ _ hc h hs hz => evaluation_single hc h hs hz,
    fun _ _ hc h hs hz hroom hnew => evaluation_several hc h hs hz hroom hnew,
    fun s n cls => post_cases s n cls⟩

end Sys2Proof.Machine

/-! ### Evaluations (R84–R112): O40, O41, O43 -/

namespace Sys2Proof.Machine

/-! #### What an evaluation leaves of a zone state -/

theorem ZoneState.levelStep_frame (z : ZoneState) (input : Level) (now : Time) (hold : Nat) :
    z.levelStep input now hold = { z with
      level := (z.levelStep input now hold).level
      hold := (z.levelStep input now hold).hold
      acked := (z.levelStep input now hold).acked } := by
  unfold ZoneState.levelStep
  cases hh : z.hold with
  | none => split_ifs <;> rfl
  | some d => simp only; split_ifs <;> rfl

theorem State.mirrorPart_frame (s : State) (z : ZoneState) : s.mirrorPart z = { z with
    contribution := (s.mirrorPart z).contribution
    lost := (s.mirrorPart z).lost
    lostDeadline := (s.mirrorPart z).lostDeadline
    degraded := (s.mirrorPart z).degraded } := by
  unfold State.mirrorPart
  simp only
  split
  · rw [ZoneState.settleMirror_frame]
  · rfl

/-- R84: the zone state with its demand written. -/
def State.demanded (s : State) (z : ZoneState) : ZoneState :=
  { z with demand := demand s.tables z.zone (liveTracks s.tracks) s.now }

/-- R84, R100: the parts of a zone state after an evaluation. -/
theorem State.evalZone_eq (s : State) (z : ZoneState) : s.evalZone z = { s.mirrorPart (s.demanded z) with
    level := (s.evalZone z).level, hold := (s.evalZone z).hold, acked := (s.evalZone z).acked } :=
  ZoneState.levelStep_frame _ _ _ _

theorem State.evalZone_kept (s : State) (z : ZoneState) :
    (s.evalZone z).zone = z.zone ∧ (s.evalZone z).pair = z.pair ∧ (s.evalZone z).announced = z.announced ∧
      (s.evalZone z).demand = demand s.tables z.zone (liveTracks s.tracks) s.now := by
  rw [State.evalZone_eq, State.mirrorPart_frame]
  exact ⟨rfl, rfl, rfl, rfl⟩

/-- R84, R100: a TICK or EVALUATION where the station takes part. -/
theorem evaluation_active {c : Instr} {s : State} (hc : c ∈ [Instr.tick, .evaluation])
    (h : s.pins.rstLow = false) (ha : s.active = true) : ∃ t, exec c s = .next t ∧
      t = { s with zev := t.zev, nq := t.nq, qlc := t.qlc, raised := t.raised } ∧
      (s.scs.station = .joining → t.nq = s.nq ∧ t.qlc = s.qlc) ∧
      t.zev = { s.zev with zones := s.zev.zones.map s.evalZone } := by
  obtain ⟨r, hexec⟩ := exec_evaluation hc h
  rw [State.evaluate_active ha] at hexec
  refine ⟨_, hexec, ?_⟩
  split
  · next hs =>
    have honly := State.postZones_only
      { s with raised := r, zev := { s.zev with zones := s.zev.zones.map s.evalZone } } (changeOf s.evalZone) s.zev.zones
    refine ⟨?_, fun hj => (nomatch hs.symm.trans hj), honly.zev⟩
    rw [honly]
  · exact ⟨rfl, fun _ => ⟨rfl, rfl⟩, rfl⟩

/-- Zone by zone: the state after an evaluation. -/
theorem evaluated_at {s t : State} (ht : t.zev = { s.zev with zones := s.zev.zones.map s.evalZone }) {k : Nat}
    {z z' : ZoneState} (hz : s.zev.zones[k]? = some z) (hz' : t.zev.zones[k]? = some z') : z' = s.evalZone z := by
  rw [ht, List.getElem?_map, hz] at hz'
  exact (Option.some.inj hz').symm

/-! #### Demand (R84, R95) -/

theorem Level.max_eq (a b : Level) : a.max b = if a.toNat < b.toNat then b else a := by
  cases a <;> cases b <;> rfl

/-- R95: one track's call taken into the demand. -/
def raisedBy (f : Track → Option Level) (l : Level) (t : Track) : Level :=
  match f t with
  | some c => l.max c
  | none => l

/-- R95: the greatest of the calls and of a level to begin with. -/
theorem foldl_raisedBy (f : Track → Option Level) (ts : List Track) (l0 : Level) :
    l0.toNat ≤ (ts.foldl (raisedBy f) l0).toNat ∧
    (∀ t ∈ ts, ∀ l, f t = some l → l.toNat ≤ (ts.foldl (raisedBy f) l0).toNat) ∧
    (ts.foldl (raisedBy f) l0 = l0 ∨ ∃ t ∈ ts, f t = some (ts.foldl (raisedBy f) l0)) := by
  induction ts generalizing l0 with
  | nil => exact ⟨le_rfl, nofun, .inl rfl⟩
  | cons t ts ih =>
    obtain ⟨hle, hall, hwit⟩ := ih (raisedBy f l0 t)
    have hstep : l0.toNat ≤ (raisedBy f l0 t).toNat ∧ (∀ l, f t = some l → l.toNat ≤ (raisedBy f l0 t).toNat) ∧
        (raisedBy f l0 t = l0 ∨ f t = some (raisedBy f l0 t)) := by
      unfold raisedBy
      cases hf : f t with
      | none => exact ⟨le_rfl, nofun, .inl rfl⟩
      | some c =>
        simp only [Level.max_eq]
        split
        · next hlt => exact ⟨by omega, fun l hl => by rw [Option.some.inj hl], .inr rfl⟩
        · next hlt => exact ⟨le_rfl, fun l hl => by rw [← Option.some.inj hl]; omega, .inl rfl⟩
    rw [List.foldl_cons]
    refine ⟨hstep.1.trans hle, fun u hu l hl => ?_, ?_⟩
    · obtain rfl | hu := List.mem_cons.1 hu
      · exact (hstep.2.1 l hl).trans hle
      · exact hall u hu l hl
    · obtain heq | ⟨u, hu, hf⟩ := hwit
      · rw [heq]
        exact hstep.2.2.imp id fun hf => ⟨t, List.mem_cons_self, hf⟩
      · exact .inr ⟨u, List.mem_cons_of_mem _ hu, hf⟩

theorem demand_eq {m : Memory} {i : Nat} (h : (zoneRec m i).kind.computes = true) (ts : List Track) (now : Time) :
    demand m i ts now = ts.foldl (raisedBy fun t => call m i t now) .clear := if_pos h

/-- R95: the demand of a computing zone: at least every call, and one of them or CLEAR. -/
theorem demand_greatest {m : Memory} {i : Nat} (h : (zoneRec m i).kind.computes = true) (ts : List Track) (now : Time) :
    (∀ t ∈ ts, ∀ l, call m i t now = some l → l.toNat ≤ (demand m i ts now).toNat) ∧
    (demand m i ts now = .clear ∨ ∃ t ∈ ts, call m i t now = some (demand m i ts now)) := by
  rw [demand_eq h]
  exact (foldl_raisedBy (fun t => call m i t now) ts .clear).2

/-- Settles O40: zone by zone the demand is written (`demand_greatest`); where the station takes no part it is
CLEAR. -/
theorem evaluationDemand : Obligations.EvaluationDemand := by
  intro c s hc h
  refine ⟨fun ha => ?_, fun ha => ?_⟩
  · obtain ⟨t, hexec, hframe, hjoin, hzev⟩ := evaluation_active hc h ha
    refine ⟨t, hexec, hframe, hjoin, by rw [hzev], by simp [hzev], fun k z z' hz hz' => ?_⟩
    obtain rfl := evaluated_at hzev hz hz'
    obtain ⟨hzone, hpair, hann, hdemand⟩ := s.evalZone_kept z
    rw [hdemand]
    refine ⟨hzone, hpair, hann, fun hk => ?_, fun hk => demand_greatest hk _ _⟩
    unfold demand
    rw [hk]
    rfl
  · obtain ⟨r, hexec⟩ := exec_evaluation hc h
    refine ⟨r, hexec.trans (congrArg _ ?_)⟩
    unfold State.evaluate
    rw [if_neg (by rw [show ({ s with raised := r } : State).active = s.active from rfl, ha]; exact Bool.false_ne_true)]
    rfl

/-! #### Levels (R100–R102, R112) -/

theorem Level.drop_toNat {a l : Level} (h : a.toNat < l.toNat) : l.drop.toNat + 1 = l.toNat := by
  cases l <;> first | rfl | cases h

theorem levelFollows_levelStep (z : ZoneState) (input : Level) (now : Time) (hold : Nat) :
    LevelFollows input now hold z (z.levelStep input now hold) := by
  unfold ZoneState.levelStep
  refine ⟨fun hlt => ?_, fun heq => ?_, fun hlt => ?_⟩
  · rw [if_pos hlt]
    exact ⟨rfl, rfl, rfl⟩
  · rw [if_neg (by rw [heq]; exact lt_irrefl _), if_pos heq]
    exact ⟨rfl, rfl, rfl⟩
  · have hne : input ≠ z.level := fun heq => lt_irrefl _ (heq ▸ hlt)
    rw [if_neg (Nat.not_lt.2 hlt.le), if_neg hne]
    refine ⟨fun hn => ?_, fun d hd hr => ?_, fun d hd hr => ?_⟩
    · simp [hn]
    · simp [hd, hr]
    · simp only [hd, hr, if_true]
      exact ⟨Level.drop_toNat hlt, trivial, congrArg _ (decide_eq_decide.2 Level.watch_lt_iff)⟩

/-- R100: the level machine of an evaluation, on the input of the zone's kind. -/
theorem State.evalZone_follows (s : State) (z : ZoneState) :
    LevelFollows (levelInput (zoneRec s.tables z.zone).kind (s.evalZone z).demand (s.evalZone z).contribution)
      s.prt.time (zoneRec s.tables z.zone).holdTime z (s.evalZone z) := by
  have hin : (s.evalZone z).demand = (s.mirrorPart (s.demanded z)).demand ∧
      (s.evalZone z).contribution = (s.mirrorPart (s.demanded z)).contribution := by
    rw [State.evalZone_eq]
    exact ⟨rfl, rfl⟩
  have hstep := levelFollows_levelStep (s.mirrorPart (s.demanded z))
    (levelInput (zoneRec s.tables z.zone).kind (s.evalZone z).demand (s.evalZone z).contribution)
    s.prt.time (zoneRec s.tables z.zone).holdTime
  have hsame : (s.mirrorPart (s.demanded z)).level = z.level ∧ (s.mirrorPart (s.demanded z)).hold = z.hold ∧
      (s.mirrorPart (s.demanded z)).acked = z.acked := by
    rw [State.mirrorPart_frame]
    exact ⟨rfl, rfl, rfl⟩
  unfold LevelFollows at hstep ⊢
  rw [hsame.1, hsame.2.1, hsame.2.2] at hstep
  rw [hin.1, hin.2] at hstep ⊢
  exact hstep

/-- Settles O41: `State.evalZone_follows` with the input of each kind. -/
theorem evaluationLevels : Obligations.EvaluationLevels := by
  intro c s hc h ha
  obtain ⟨t, hexec, -, -, hzev⟩ := evaluation_active hc h ha
  refine ⟨t, hexec, fun k z z' hz hz' => ?_⟩
  obtain rfl := evaluated_at hzev hz hz'
  have hfollows := s.evalZone_follows z
  refine ⟨fun hk => ?_, fun hk => ?_, fun hk => ?_⟩
  · rw [hk] at hfollows
    exact hfollows
  · rw [hk] at hfollows
    exact hfollows
  · rw [hk] at hfollows
    rw [← Level.max_eq]
    exact hfollows

/-! #### The acknowledging evaluation (R85, R112) -/

theorem exec_ackEvaluation {s : State} (h : s.pins.rstLow = false) :
    exec .ackEvaluation s = .next (s.takeEvent fun e => decide (e = .ackEvaluation)).ackEvaluation :=
  congrArg _ (State.unlessHeld_high (s := s.takeEvent _) h _)


/-- Posts look at neither SFE nor what has been raised: with those replaced, queue and line come out the same. -/
def SameQueue (s t : State) : Prop := t = { s with sfe := t.sfe, raised := t.raised }

theorem SameQueue.of_queue {s t s' t' : State} (h : SameQueue s t) (hs : OnlyPosts s s') (ht : OnlyPosts t t')
    (hnq : t'.nq = s'.nq) (hqlc : t'.qlc = s'.qlc) : SameQueue s' t' := by
  unfold SameQueue
  rw [ht, hs, hnq, hqlc, h]

theorem SameQueue.follow {s t : State} (h : SameQueue s t) : SameQueue s.follow t.follow := by
  have hsel : t.selection = s.selection := by
    rw [h]
    rfl
  have hq : t.qlc = s.qlc := by rw [h]
  have hscs : t.scs = s.scs := by rw [h]
  have hnq : t.nq = s.nq := by rw [h]
  refine h.of_queue s.follow_only t.follow_only (by simp [hnq]) ?_
  unfold State.follow
  rw [hsel, hq]
  split
  · simp [State.reselect, hq, hscs]
  · simp [hq]
  · split
    · exact hq
    · simp [State.beginHoldoff, hq, hscs]
  · exact hq

theorem SameQueue.place {s t : State} (h : SameQueue s t) (e : Entry) : SameQueue (s.place e) (t.place e) := by
  unfold State.place
  have hnq : t.nq = s.nq := by rw [h]
  rw [hnq]
  have hset : ∀ es, SameQueue (s.setEntries es) (t.setEntries es) := fun es =>
    h.of_queue (OnlyPosts.mapNq _ _) (OnlyPosts.mapNq _ _) (by simp [hnq]) (by rw [h]; rfl)
  split
  · exact hset _
  · split
    · exact h
    · split
      · exact hset _
      · exact h

theorem SameQueue.takePost {s t : State} (h : SameQueue s t) (e : Entry) :
    SameQueue (s.takePost e) (t.takePost e) := by
  have hentry : t.entryOf e.key = s.entryOf e.key := by rw [h]; rfl
  have hdrop : t.dropsPost e.notice = s.dropsPost e.notice := by rw [h]; rfl
  have hnq : t.nq = s.nq := by rw [h]
  have hqlc : t.qlc = s.qlc := by rw [h]
  have hred : ∀ n, t.redundant n = s.redundant n := fun n => by rw [h]; rfl
  unfold State.takePost
  rw [hentry, hdrop]
  split
  · exact h
  · split
    · exact h.place e
    · split
      · exact h.of_queue (OnlyPosts.mapNq _ _) (OnlyPosts.mapNq _ _) (by simp [State.hold, hnq]) hqlc
      · next x _ _ =>
        have honly : ∀ u : State, OnlyPosts u (u.refold x e) := fun _ => rfl
        exact h.of_queue (honly s) (honly t) (by simp [State.refold, hnq, hred]) hqlc

theorem SameQueue.post {s t : State} (h : SameQueue s t) (cls : Nat) (n : Notice) :
    SameQueue (s.post cls n) (t.post cls n) := by
  have hnq : t.nq = s.nq := by rw [h]
  have hserial : SameQueue s.takeSerial t.takeSerial :=
    h.of_queue (OnlyPosts.mapNq _ _) (OnlyPosts.mapNq _ _) (by simp [State.takeSerial, hnq]) (by rw [h]; rfl)
  have hentry : t.postEntry cls n = s.postEntry cls n := by rw [h]; rfl
  have hpost := (hserial.takePost (s.postEntry cls n)).follow
  rw [← hentry] at hpost
  nth_rw 1 [hentry] at hpost
  exact hpost

theorem SameQueue.postZones {s t : State} (h : SameQueue s t) (g : ZoneState → Option (Nat × Level))
    (zs : List ZoneState) : SameQueue (s.postZones g zs) (t.postZones g zs) := by
  induction zs generalizing s t with
  | nil => exact h
  | cons z zs ih =>
    cases hg : g z with
    | none =>
      rw [State.postZones_cons_none s hg, State.postZones_cons_none t hg]
      exact ih h
    | some p =>
      rw [State.postZones_cons_some s hg, State.postZones_cons_some t hg]
      exact ih (h.post _ _)

/-- An evaluation looks at neither SFE nor what has been raised. -/
theorem SameQueue.evaluate {s t : State} (h : SameQueue s t) : SameQueue s.evaluate t.evaluate := by
  have hzones : t.evalZone = s.evalZone :=
    State.evalZone_congr (by rw [h]) (by rw [h]) (by rw [h]) (by rw [h])
  have hactive : t.active = s.active := by rw [h]; rfl
  have hzev : t.zev = s.zev := by rw [h]
  have hscs : t.scs = s.scs := by rw [h]
  have hmap : ∀ f, SameQueue (s.mapZev f) (t.mapZev f) := fun f => by
    unfold SameQueue
    rw [h]
    rfl
  have hsplit : ∀ u : State, u.evaluate = if u.active = true then
      (if u.scs.station = .operating then
        (u.mapZev fun v => { v with zones := u.zev.zones.map u.evalZone }).postZones (changeOf u.evalZone) u.zev.zones
      else u.mapZev fun v => { v with zones := u.zev.zones.map u.evalZone })
      else u.mapZev fun v => { v with zones := v.zones.map fun z => { z with demand := .clear } } := fun u => by
    unfold State.evaluate
    simp only [State.postChanges_eq u.evalZone_zone]
  rw [hsplit s, hsplit t, hactive, hscs, hzones, hzev]
  split
  · split
    · exact (hmap _).postZones _ _
    · exact hmap _
  · exact hmap _

/-- Settles O43: the acknowledging evaluation is an evaluation, with the flag cleared and the levels acknowledged. -/
theorem ackAcknowledges : Obligations.AckAcknowledges := by
  intro s h
  rw [exec_ackEvaluation h]
  generalize hu : s.takeEvent (fun e => decide (e = .ackEvaluation)) = u
  have hus : u = { s with raised := u.raised } := by rw [← hu]; rfl
  refine ⟨fun hp => ?_, fun hp => ⟨u.raised, congrArg _ ?_⟩⟩
  · have hexec : exec .evaluation s = .next (s.takeEvent fun e => decide (e = .evaluation)).evaluate :=
      congrArg _ (State.unlessHeld_high (s := s.takeEvent _) h _)
    have hsame : SameQueue (s.takeEvent fun e => decide (e = .evaluation))
        (u.mapSfe fun f => { f with ackPending := false }) := by
      unfold SameQueue
      rw [hus]
      rfl
    have heval := hsame.evaluate
    generalize hv : (s.takeEvent fun e => decide (e = .evaluation)).evaluate = v at heval hexec
    have hack : u.ackEvaluation = (u.mapSfe fun f => { f with ackPending := false }).evaluate.acknowledge := by
      unfold State.ackEvaluation
      rw [hus]
      exact if_pos hp
    have hsfe : (u.mapSfe fun f => { f with ackPending := false }).evaluate.sfe =
        { s.sfe with ackPending := false } := by
      rw [(State.evaluate_only _).sfe, hus]
      rfl
    have hframe : v = { s with zev := v.zev, nq := v.nq, qlc := v.qlc, raised := v.raised } := by
      have honly := State.evaluate_only (s.takeEvent fun e => decide (e = .evaluation))
      rw [hv] at honly
      rw [honly]
      rfl
    refine ⟨_, v, rfl, hexec, ?_, ?_, ?_⟩
    · rw [hack, heval, hsfe, hframe]
      rfl
    · rw [hack, heval]
      rfl
    · rw [hack, heval]
      change v.zev.zones.map _ = _
      refine List.map_congr_left fun z _ => ?_
      congr 2
      exact decide_eq_decide.2 Level.watch_lt_iff
  · unfold State.ackEvaluation
    rw [hus]
    exact if_neg (by rw [hp]; exact Bool.false_ne_true)

end Sys2Proof.Machine

/-! ### What a track calls for (R87–R94, O45) and the outputs (R113–R116, O46) -/

namespace Sys2Proof.Machine

/-! #### Prediction (R87–R89) -/

theorem approachEta_eq_some {t : Track} {now : Time} {a : Approach} {eta : Int} :
    approachEta t now a = some eta ↔ a.mask.getLsbD t.sector = true ∧
      ∃ x, sightingOf t.sightings a.source = some x ∧
        eta = (x.time + BitVec.ofNat 32 (a.distance * 10000 / max t.peakSpeed 10) - now).toInt := by
  unfold approachEta hasSector
  split
  · next hm => simp [hm, timeDiff, ms, transit, eq_comm]
  · next hm => simp [hm]

theorem predicts_iff {m : Memory} {i : Nat} {t : Track} {now : Time} {eta : Int} :
    Predicts m i t now eta ↔ ∃ a ∈ approaches m i, approachEta t now a = some eta := by
  unfold Predicts
  simp only [approachEta_eq_some]

/-- R88: the latest of the predictions and of one to begin with. -/
theorem foldl_greatestOf (l : List (Option Int)) (o : Option Int) :
    (l.foldl greatestOf o = none ↔ o = none ∧ ∀ x ∈ l, x = none) ∧
    ∀ e, l.foldl greatestOf o = some e →
      (o = some e ∨ some e ∈ l) ∧ (∀ x, o = some x → x ≤ e) ∧ ∀ x, some x ∈ l → x ≤ e := by
  induction l generalizing o with
  | nil => exact ⟨by simp, fun e he => ⟨.inl he, fun x hx => by simp_all, by simp⟩⟩
  | cons b l ih =>
    obtain ⟨hnone, hsome⟩ := ih (greatestOf o b)
    rw [List.foldl_cons]
    have hstep : (greatestOf o b = none ↔ o = none ∧ b = none) ∧
        ∀ e, greatestOf o b = some e → (o = some e ∨ b = some e) ∧ (∀ x, o = some x → x ≤ e) ∧ ∀ x, b = some x → x ≤ e := by
      cases o with
      | none => exact ⟨by simp [greatestOf], fun e he => ⟨.inr he, nofun, fun x hx => (Option.some.inj (hx.symm.trans he)).le⟩⟩
      | some a =>
        cases b with
        | none => simp [greatestOf]
        | some c =>
          refine ⟨by simp [greatestOf], fun e he => ?_⟩
          obtain rfl : max a c = e := Option.some.inj he
          refine ⟨(max_choice a c).imp (fun h => by rw [h]) fun h => by rw [h], ?_, ?_⟩
          · rintro x rfl_x
            rw [← Option.some.inj rfl_x]
            exact le_max_left _ _
          · rintro x rfl_x
            rw [← Option.some.inj rfl_x]
            exact le_max_right _ _
    refine ⟨?_, fun e he => ?_⟩
    · rw [hnone, hstep.1]
      simp [and_assoc]
    · obtain ⟨hfrom, hge, hle⟩ := hsome e he
      cases hg : greatestOf o b with
      | none =>
        obtain ⟨rfl, rfl⟩ := hstep.1.1 hg
        refine ⟨.inr (List.mem_cons_of_mem _ (hfrom.resolve_left (by simp [hg]))), nofun, fun x hx => hle x ?_⟩
        simpa using hx
      | some g =>
        obtain ⟨hg1, hg2, hg3⟩ := hstep.2 g hg
        have hgle := hge g hg
        refine ⟨?_, fun x hx => (hg2 x hx).trans hgle, fun x hx => ?_⟩
        · obtain heq | hmem := hfrom
          · obtain rfl : g = e := Option.some.inj (hg.symm.trans heq)
            exact hg1.imp id fun hb => List.mem_cons.2 (.inl hb.symm)
          · exact .inr (List.mem_cons_of_mem _ hmem)
        · obtain heq | hmem := List.mem_cons.1 hx
          · exact (hg3 x heq.symm).trans hgle
          · exact hle x hmem

/-- R88, R89: the ETA of a track is the latest of its predictions. -/
theorem trackEta_eq_none {m : Memory} {i : Nat} {t : Track} {now : Time} :
    trackEta m i t now = none ↔ ∀ eta, ¬Predicts m i t now eta := by
  unfold trackEta
  rw [(foldl_greatestOf _ none).1]
  simp only [List.mem_map, forall_exists_index, and_imp, forall_apply_eq_imp_iff₂, true_and, predicts_iff]
  refine ⟨fun h eta ⟨a, ha, he⟩ => (nomatch (h a ha).symm.trans he), fun h a ha => ?_⟩
  cases he : approachEta t now a with
  | none => rfl
  | some eta => exact absurd ⟨a, ha, he⟩ (h eta)

theorem trackEta_eq_some {m : Memory} {i : Nat} {t : Track} {now : Time} {eta : Int} :
    trackEta m i t now = some eta ↔ Predicts m i t now eta ∧ ∀ e, Predicts m i t now e → e ≤ eta := by
  have hsome : ∀ eta, trackEta m i t now = some eta → Predicts m i t now eta ∧ ∀ e, Predicts m i t now e → e ≤ eta :=
    fun eta h => by
      obtain ⟨hfrom, -, hle⟩ := (foldl_greatestOf _ none).2 eta h
      simp only [predicts_iff]
      refine ⟨?_, fun e ⟨a, ha, he⟩ => hle e (List.mem_map.2 ⟨a, ha, he⟩)⟩
      simpa using hfrom
  refine ⟨hsome eta, fun ⟨hp, hmax⟩ => ?_⟩
  cases h : trackEta m i t now with
  | none => exact absurd hp (trackEta_eq_none.1 h eta)
  | some e =>
    obtain ⟨hpe, hmaxe⟩ := hsome e h
    rw [le_antisymm (hmax e hpe) (hmaxe eta hp)]

/-! #### Predicates (R90–R92) -/

theorem predicate_iff (code : Nat) (g d w c : Bool) :
    predicate code g d w c = true ↔ PredicateTrue code (g = true) (d = true) (w = true) (c = true) := by
  unfold PredicateTrue
  by_cases hc : code ≤ 15
  · interval_cases code <;> simp [predicate, and_assoc]
  · obtain ⟨n, rfl⟩ := Nat.exists_eq_add_of_le (Nat.lt_of_not_le hc)
    have hfalse : predicate (15 + 1 + n) g d w c = false := by
      rw [Nat.add_comm]
      rfl
    rw [hfalse]
    refine iff_of_false Bool.false_ne_true ?_
    omega

theorem usesD_iff (code : Nat) : usesD code = true ↔ code ∈ [2, 3, 4, 6, 7, 8, 10, 11, 12, 13, 14] := by
  by_cases hc : code ≤ 15
  · interval_cases code <;> simp [usesD]
  · obtain ⟨n, rfl⟩ := Nat.exists_eq_add_of_le (Nat.lt_of_not_le hc)
    have hfalse : usesD (15 + 1 + n) = false := by
      rw [Nat.add_comm]
      rfl
    rw [hfalse]
    refine iff_of_false Bool.false_ne_true ?_
    simp only [List.mem_cons, List.not_mem_nil, or_false]
    omega

theorem flagD_iff (z : ZoneRec) (t : Track) : flagD z t = true ↔ (∃ d, t.peakDust = some d ∧ z.dustLimit ≤ d) ∨
    (t.peakDust = none ∧ z.predicate ∈ [2, 3, 4, 6, 7, 8, 10, 11, 12, 13, 14]) := by
  unfold flagD
  cases t.peakDust with
  | none => simp [usesD_iff]
  | some d => simp

theorem predicateHolds_iff (z : ZoneRec) (t : Track) : predicateHolds z t = true ↔ PredicateMet z t := by
  unfold predicateHolds PredicateMet
  rw [predicate_iff, flagD_iff]
  simp [flagG]

theorem rankAuthority_iff (m : Memory) (z : ZoneRec) (t : Track) : rankAuthority m z t = true ↔
    ∃ x ∈ t.sightings, ∃ r, rankOf m x.station = some r ∧ r ≤ z.alarmRank := by
  unfold rankAuthority
  rw [List.any_eq_true]
  refine exists_congr fun x => and_congr_right fun _ => ?_
  cases rankOf m x.station <;> simp

/-! #### The call (R89, R92–R94) -/

theorem supports_iff (z : ZoneRec) (eta : Int) : supports z eta = true ↔ -((z.holdTime * 1000 : Nat) : Int) ≤ eta := by
  simp [supports]

/-- R92: the cap of an alarm at WARN. -/
theorem dustCap_alarm_capped {z : ZoneRec} {t : Track} (h : t.peakDust = none ∧ usesD z.predicate = true) :
    dustCap z t .alarm = .warn := by
  simp [dustCap, h.1, h.2]

theorem dustCap_other {z : ZoneRec} {t : Track} {l : Level} (h : l ≠ .alarm) : dustCap z t l = l := by
  simp [dustCap, h]

theorem dustCap_alarm_free {z : ZoneRec} {t : Track} (h : ¬(t.peakDust = none ∧ usesD z.predicate = true)) :
    dustCap z t .alarm = .alarm := by
  unfold dustCap
  cases hd : t.peakDust with
  | none =>
    have hu : usesD z.predicate = false := by
      rw [← Bool.not_eq_true]
      exact fun hu => h ⟨hd, hu⟩
    simp [hu]
  | some d => simp

/-- R89, R93: a track with an ETA calls by its lead where it supports the zone and its predicate is true. -/
theorem call_of_eta {m : Memory} {i : Nat} {t : Track} {now : Time} {eta : Int} (h : trackEta m i t now = some eta) :
    call m i t now = if supports (zoneRec m i) eta && predicateHolds (zoneRec m i) t then
      (leadLevel (zoneRec m i) eta t.confirmed (rankAuthority m (zoneRec m i) t)).map (dustCap (zoneRec m i) t)
    else none := by
  simp [call, h]

/-- R93: what the leads give, capped: the three levels and their conditions. -/
theorem leadLevel_capped {z : ZoneRec} {t : Track} {eta : Int} {authority : Bool} {l : Level}
    (h : (leadLevel z eta t.confirmed authority).map (dustCap z t) = some l) :
    (l = .alarm ∧ eta ≤ (z.alarmLead * 1000 : Nat) ∧ t.confirmed = true ∧ authority = true ∧
      ¬(t.peakDust = none ∧ usesD z.predicate = true)) ∨
    (l = .warn ∧ t.confirmed = true ∧ (eta ≤ (z.alarmLead * 1000 : Nat) ∨ eta ≤ (z.warnLead * 1000 : Nat))) ∨
    (l = .watch ∧ eta ≤ (z.watchLead * 1000 : Nat)) := by
  unfold leadLevel at h
  split at h
  · next ha =>
    obtain rfl := Option.some.inj h
    by_cases hcap : t.peakDust = none ∧ usesD z.predicate = true
    · exact .inr (.inl ⟨dustCap_alarm_capped hcap, ha.2.1, .inl ha.1⟩)
    · exact .inl ⟨dustCap_alarm_free hcap, ha.1, ha.2.1, ha.2.2, hcap⟩
  · split at h
    · next hw =>
      obtain rfl := Option.some.inj h
      exact .inr (.inl ⟨dustCap_other nofun, hw.2, .inr hw.1⟩)
    · split at h
      · next hw =>
        obtain rfl := Option.some.inj h
        exact .inr (.inr ⟨dustCap_other nofun, hw⟩)
      · cases h

theorem lead_mono {eta : Int} {a b : Nat} (h : eta ≤ (a * 1000 : Nat)) (hab : a ≤ b) : eta ≤ (b * 1000 : Nat) :=
  h.trans (Int.ofNat_le.2 (Nat.mul_le_mul_right 1000 hab))

/-- R87–R94: what holds of a track that calls for a level. -/
theorem call_bounded {m : Memory} {i : Nat} {t : Track} {now : Time} {l : Level} (h : call m i t now = some l) :
    l ≠ .clear ∧ predicateHolds (zoneRec m i) t = true ∧
    (t.confirmed = false → l = .watch) ∧
    (l = .alarm → ∃ x ∈ t.sightings, ∃ r, rankOf m x.station = some r ∧ r ≤ (zoneRec m i).alarmRank) ∧
    (l = .alarm → usesD (zoneRec m i).predicate = true → t.peakDust.isSome = true) ∧
    ∃ eta, (∃ a ∈ approaches m i, approachEta t now a = some eta) ∧
      (∀ a ∈ approaches m i, ∀ e, approachEta t now a = some e → e ≤ eta) ∧
      -((zoneRec m i).holdTime * 1000 : Nat) ≤ eta ∧
      (l = .alarm → eta ≤ ((zoneRec m i).alarmLead * 1000 : Nat)) ∧
      ((zoneRec m i).alarmLead ≤ (zoneRec m i).warnLead →
        (zoneRec m i).warnLead ≤ (zoneRec m i).watchLead →
        eta ≤ ((zoneRec m i).watchLead * 1000 : Nat)) := by
  cases he : trackEta m i t now with
  | none => simp [call, he] at h
  | some eta =>
    rw [call_of_eta he] at h
    split at h
    · next hs =>
      rw [Bool.and_eq_true, supports_iff] at hs
      obtain ⟨hhold, hpred⟩ := hs
      obtain ⟨hp, hmax⟩ := trackEta_eq_some.1 he
      have hbound := leadLevel_capped h
      have hmax' : ∀ a ∈ approaches m i, ∀ e, approachEta t now a = some e → e ≤ eta :=
        fun a ha e hae => hmax e (predicts_iff.2 ⟨a, ha, hae⟩)
      obtain ⟨rfl, ha, hconf, hauth, hcap⟩ | ⟨rfl, hconf, hlead⟩ | ⟨rfl, hlead⟩ := hbound
      · refine ⟨nofun, hpred, fun hc => (nomatch hc.symm.trans hconf), fun _ => (rankAuthority_iff _ _ _).1 hauth,
          fun _ hu => ?_, eta, predicts_iff.1 hp, hmax', hhold, fun _ => ha, fun h1 h2 => lead_mono ha (h1.trans h2)⟩
        rw [Option.isSome_iff_ne_none]
        exact fun hn => hcap ⟨hn, hu⟩
      · exact ⟨nofun, hpred, fun hc => (nomatch hc.symm.trans hconf), nofun, nofun, eta, predicts_iff.1 hp, hmax',
          hhold, nofun, fun h1 h2 => hlead.elim (lead_mono · (h1.trans h2)) (lead_mono · h2)⟩
      · exact ⟨nofun, hpred, fun _ => rfl, nofun, nofun, eta, predicts_iff.1 hp, hmax', hhold, nofun, fun _ _ => hlead⟩
    · cases h

/-- R93, R94: the level that the leads give, the three conditions in turn. -/
theorem callFollows_of_eta {m : Memory} {i : Nat} {t : Track} {now : Time} {eta : Int}
    (he : trackEta m i t now = some eta) (hs : supports (zoneRec m i) eta = true)
    (hp : predicateHolds (zoneRec m i) t = true) : CallFollows m i t eta (call m i t now) := by
  rw [call_of_eta he, hs, hp]
  unfold CallFollows
  simp only [← rankAuthority_iff, ← usesD_iff, Bool.and_self, if_true]
  unfold leadLevel
  refine ⟨fun ha hc => ?_, fun ha hc => ?_, fun ha hw => ?_, fun ha hw hwatch => ?_, fun ha hw hwatch => ?_⟩
  · rw [if_pos ha]
    exact congrArg some (dustCap_alarm_capped hc)
  · rw [if_pos ha]
    exact congrArg some (dustCap_alarm_free hc)
  · rw [if_neg ha, if_pos hw]
    exact congrArg some (dustCap_other nofun)
  · rw [if_neg ha, if_neg hw, if_pos hwatch]
    exact congrArg some (dustCap_other nofun)
  · rw [if_neg ha, if_neg hw, if_neg hwatch]
    rfl

/-- Settles O45: `call_bounded` one way, `callFollows_of_eta` the other. -/
theorem callsBounded : Obligations.CallsBounded := by
  refine ⟨fun m i t now l => call_bounded, fun m i t now => ⟨fun eta hp hmax => ⟨fun hhold hmet => ?_, fun hpast => ?_⟩,
    fun hnone => ?_, fun hnot => ?_⟩⟩
  · exact callFollows_of_eta (trackEta_eq_some.2 ⟨hp, hmax⟩) ((supports_iff _ _).2 hhold) ((predicateHolds_iff _ _).2 hmet)
  · have hs : supports (zoneRec m i) eta = false := by
      rw [← Bool.not_eq_true, supports_iff]
      omega
    rw [call_of_eta (trackEta_eq_some.2 ⟨hp, hmax⟩), hs]
    rfl
  · simp [call, trackEta_eq_none.2 hnone]
  · have hpred : predicateHolds (zoneRec m i) t = false := by
      rw [← Bool.not_eq_true, predicateHolds_iff]
      exact hnot
    cases he : trackEta m i t now with
    | none => simp [call, he]
    | some eta =>
      rw [call_of_eta he, hpred, Bool.and_false]
      rfl

/-! #### Beacons and sounders (R113–R116) -/

theorem State.noService_iff (s : State) : s.noService = true ↔
    s.prt.time.toNat % 2000 < 200 ∨ (400 ≤ s.prt.time.toNat % 2000 ∧ s.prt.time.toNat % 2000 < 600) :=
  decide_eq_true_iff

theorem State.levelPattern_iff (s : State) (l : Level) : s.levelPattern l = true ↔
    (l = .watch ∧ s.prt.time.toNat % 4000 < 1000) ∨ (l = .warn ∧ s.prt.time.toNat % 1000 < 500) ∨ l = .alarm := by
  cases l with
  | clear => simp [State.levelPattern]
  | watch => exact decide_eq_true_iff.trans (by simp; rfl)
  | warn => exact decide_eq_true_iff.trans (by simp; rfl)
  | alarm => simp [State.levelPattern]

theorem State.lostGap_iff (s : State) (z : ZoneState) : s.lostGap z = true ↔
    z.degraded = true ∧ 200 ≤ s.prt.time.toNat % 1000 ∧ s.prt.time.toNat % 1000 < 300 := by
  unfold State.lostGap
  rw [Bool.and_eq_true]
  exact and_congr_right fun _ => decide_eq_true_iff

theorem State.zoneSounds_iff (s : State) (z : ZoneState) : s.zoneSounds z = true ↔ z.acked = false ∧
    (z.level = .alarm ∨ (z.level = .warn ∧ s.prt.time.toNat % 2000 < 1000)) := by
  unfold State.zoneSounds
  rw [Bool.and_eq_true, Bool.not_eq_true']
  refine and_congr_right fun _ => ?_
  cases z.level with
  | clear => simp
  | watch => simp
  | warn => exact decide_eq_true_iff.trans (by simp; rfl)
  | alarm => simp

/-- Settles O46: the output functions of a bound pair, in OPERATING and out of it. -/
theorem outputsShow : Obligations.OutputsShow := by
  intro s pair hrst
  refine ⟨fun hb => ?_, fun z hz => ⟨fun hs => ⟨?_, ?_⟩, fun hs => ⟨?_, ?_⟩⟩⟩
  · simp [State.beacon, State.sounder, hrst, hb]
  · simp [State.sounder, hrst, hz, hs]
  · rw [← State.noService_iff]
    simp [State.beacon, hrst, hz, hs]
  · rw [← State.levelPattern_iff, ← State.lostGap_iff]
    simp [State.beacon, hrst, hz, hs]
  · rw [← State.zoneSounds_iff]
    simp [State.sounder, hrst, hz, hs]

end Sys2Proof.Machine

/-! ### The epoch boundary (R165–R170, R184, O54) -/

namespace Sys2Proof.Machine

/-! #### The boundary notice (R184, R189) -/

/-- SCS after a boundary notice. -/
def State.noticedScs (s : State) : Scs :=
  { s.scs with
    station := if s.scs.station = .joining ∧ 1 ≤ s.scs.joining then .operating else s.scs.station
    joining := if s.scs.station = .joining then s.scs.joining + 1 else s.scs.joining
    healthArm := s.scs.healthArm || s.scs.quietEpoch
    quietEpoch := !s.conditionPresent }

/-- The marks set anew after posts. -/
theorem OnlyPosts.rearm {s t : State} (h : OnlyPosts s t) : OnlyPosts s.rearm t.rearm := by
  have hc : t.conditionPresent = s.conditionPresent := by
    unfold State.conditionPresent
    rw [h.sfe, h.prt]
  unfold State.rearm OnlyPosts
  rw [hc, h]
  rfl

theorem State.boundaryNotice_posts (s : State) :
    OnlyPosts { s with scs := s.noticedScs } s.boundaryNotice := by
  unfold State.boundaryNotice State.noticedScs
  by_cases hj : s.scs.station = .joining
  · simp only [hj, if_true, true_and]
    by_cases h1 : 1 ≤ s.scs.joining
    · have h2 : 2 ≤ (s.mapScs fun c => { c with joining := c.joining + 1 }).scs.joining := Nat.succ_le_succ h1
      simp only [h1, if_true]
      rw [if_pos h2]
      exact OnlyPosts.rearm ((State.postLevels_only _ _).trans (State.follow_only _))
    · have h2 : ¬2 ≤ (s.mapScs fun c => { c with joining := c.joining + 1 }).scs.joining :=
        fun h => h1 (Nat.le_of_succ_le_succ h)
      simp only [h1, if_false]
      rw [if_neg h2]
      have hrefl := OnlyPosts.rearm (.refl (s.mapScs fun c => { c with joining := c.joining + 1 }))
      simp only [State.rearm, State.mapScs, hj] at hrefl ⊢
      exact hrefl
  · simp only [hj, if_false, false_and]
    exact .refl _

/-! #### The correction (R166–R169) -/

/-- R168, R169: common time's counters after a slewed correction. -/
def Prt.slewedBy (p : Prt) (c : Int) : Prt :=
  { p with
    lastCorr := some c
    slew := clampSlew c
    slewPhase := 0
    trim := adjustTrim p.trim c
    trimPhase := if adjustTrim p.trim c = p.trim then p.trimPhase else 0 }

theorem slews_of_not_step {s : State} {c : Int} (h : ¬(s.scs.station = .joining ∧ 250 < c.natAbs)) :
    s.scs.station ≠ .joining ∨ c.natAbs ≤ 250 := by
  by_cases hj : s.scs.station = .joining
  · exact .inr (Nat.le_of_not_lt fun hlt => h ⟨hj, hlt⟩)
  · exact .inl hj

theorem State.corrected_none {s : State} (h : correction s.prt.offsets = none) : s.corrected = s := by
  unfold State.corrected
  rw [h]

/-- R167, R103: the step in JOINING. -/
theorem State.corrected_step {s : State} {c : Int} (h : correction s.prt.offsets = some c)
    (hj : s.scs.station = .joining) (hc : 250 < c.natAbs) :
    s.corrected = (s.mapPrt fun p => { p with lastCorr := some c }).stepTime c := by
  unfold State.corrected State.applyCorrection
  rw [h]
  exact if_pos ⟨hj, hc⟩

theorem State.corrected_slew {s : State} {c : Int} (h : correction s.prt.offsets = some c)
    (hc : s.scs.station ≠ .joining ∨ c.natAbs ≤ 250) :
    s.corrected = if !s.prt.timeRail && (s.prt.slewedBy c).timeRail then
      (s.mapPrt fun p => p.slewedBy c).faultEvent .timeRail else s.mapPrt fun p => p.slewedBy c := by
  have hnot : ¬(s.scs.station = .joining ∧ Config.stepMs < c.natAbs) := fun ⟨hj, hgt⟩ =>
    hc.elim (fun h => h hj) fun hle => absurd hgt (Nat.not_lt.2 hle)
  unfold State.corrected State.applyCorrection
  rw [h]
  exact if_neg hnot

theorem State.corrected_slew_faults {s : State} {c : Int} (h : correction s.prt.offsets = some c)
    (hc : s.scs.station ≠ .joining ∨ c.natAbs ≤ 250) :
    OnlyFaults (s.mapPrt fun p => p.slewedBy c) s.corrected := by
  rw [State.corrected_slew h hc]
  split
  · exact State.faultEvent_only _ _
  · exact .refl _

/-- R187, R189: SCS after the correction: a fault event where the trim has come to its rail. -/
theorem State.corrected_scs (s : State) : s.corrected.scs =
    if !s.prt.timeRail && s.corrected.prt.timeRail then { s.scs with
      faults := s.scs.faults.set .timeRail, quietEpoch := false
      healthArm := s.scs.healthArm && s.scs.faults.timeRail }
    else s.scs := by
  cases h : correction s.prt.offsets with
  | none =>
    rw [State.corrected_none h]
    cases s.prt.timeRail <;> rfl
  | some c =>
    by_cases hstep : s.scs.station = .joining ∧ 250 < c.natAbs
    · rw [State.corrected_step h hstep.1 hstep.2]
      have hrail : ((s.mapPrt fun p => { p with lastCorr := some c }).stepTime c).prt.timeRail = s.prt.timeRail := rfl
      rw [hrail]
      cases s.prt.timeRail <;> rfl
    · have hc := slews_of_not_step hstep
      have hprt : s.corrected.prt = s.prt.slewedBy c := by
        rw [State.corrected_slew_faults h hc]
        rfl
      rw [hprt, State.corrected_slew h hc]
      split
      · rw [State.faultEvent_scs]
        rfl
      · rfl

/-! #### The boundary together -/

/-- The state that the boundary notice finds: corrected, the offsets emptied, the lock settled. -/
def State.settled (s : State) : State := s.corrected.mapPrt fun p => { p with
  offsets := [], lock := (lockAfter s.prt.lockCount (correction s.prt.offsets)).1
  lockCount := (lockAfter s.prt.lockCount (correction s.prt.offsets)).2 }

theorem State.epochBoundary_posts (s : State) :
    OnlyPosts { s.settled with scs := s.settled.noticedScs } s.epochBoundary := by
  rw [State.epochBoundary_eq]
  exact State.boundaryNotice_posts _

theorem State.boundaryTaken_deadlines (s : State) : OnlyDeadlines s.epochBoundary s.boundaryTaken := by
  by_cases h : s.epochBoundary.prt.time = s.prt.time
  · rw [State.boundaryTaken_same h]
    exact .refl _
  · rw [State.boundaryTaken_stepped h]
    exact State.passDeadlines_only _

/-- What a boundary leaves of each block, besides slots, roster, queue, line and events. -/
theorem State.boundaryTaken_blocks (s : State) :
    s.boundaryTaken.prt = { s.settled.prt with roster := s.boundaryTaken.prt.roster } ∧
    s.boundaryTaken.zev = s.corrected.zev ∧ s.boundaryTaken.scs = s.settled.noticedScs ∧
    s.boundaryTaken.tables = s.tables ∧ s.boundaryTaken.nq = s.epochBoundary.nq := by
  have hposts := s.epochBoundary_posts
  have hprt := s.boundaryTaken_deadlines.prt
  rw [hposts.prt] at hprt
  obtain ⟨n, hdead⟩ := s.boundaryTaken_deadlines
  refine ⟨hprt, ?_, ?_, ?_, ?_⟩
  · rw [hdead]
    exact hposts.zev
  · rw [hdead]
    exact hposts.scs
  · rw [s.boundaryTaken_only]
  · rw [hdead]

/-- R166: with no offsets there is no correction. -/
theorem correction_none_iff (l : List Offset) : correction l = none ↔ l = [] := by
  have hkept : keptOffsets l = [] ↔ l = [] := by
    unfold keptOffsets
    split
    · next h =>
      obtain ⟨o, ho, hl⟩ := List.any_eq_true.1 h
      refine iff_of_false (fun he => ?_) (List.ne_nil_of_mem ho)
      rw [List.map_eq_nil_iff, List.filter_eq_nil_iff] at he
      exact he o ho hl
    · exact List.map_eq_nil_iff
  rw [← hkept]
  unfold correction
  cases keptOffsets l <;> simp

/-! #### What stays at the front of the waiting events -/

/-- What has `l` at the front of its waiting events keeps it there. -/
def KeepsFront (l : List Instr) (s t : State) : Prop := l <+: s.raised → l <+: t.raised

theorem KeepsFront.trans {l : List Instr} {s t u : State} (h : KeepsFront l s t) (k : KeepsFront l t u) :
    KeepsFront l s u := fun hs => k (h hs)

theorem KeepsFront.append {l k : List Instr} {s t : State} (h : t.raised = s.raised ++ k) : KeepsFront l s t :=
  fun hs => h ▸ hs.trans (List.prefix_append _ _)

theorem KeepsFront.expiryCheck {l : List Instr} (hl : ∀ e ∈ l, isHoldoffExpiry e = false) (s : State) :
    KeepsFront l s s.expiryCheck := by
  unfold State.expiryCheck
  split
  · split
    · exact id
    · exact .append rfl
  · rintro ⟨k, hk⟩
    refine ⟨k.filter fun e => !isHoldoffExpiry e, ?_⟩
    have hkept : l.filter (fun e => !isHoldoffExpiry e) = l := List.filter_eq_self.2 fun e he => by simp [hl e he]
    change _ = s.raised.filter _
    rw [← hk, List.filter_append, hkept]

theorem KeepsFront.follow {l : List Instr} (hl : ∀ e ∈ l, isHoldoffExpiry e = false) (s : State) :
    KeepsFront l s s.follow := by
  unfold State.follow
  split
  · exact .trans (t := s.mapQlc _) id (.expiryCheck hl _)
  · exact .trans (t := s.mapQlc _) id (.expiryCheck hl _)
  · split
    · exact id
    · exact .trans (t := s.mapQlc _) id (.expiryCheck hl _)
  · exact id

theorem State.takePost_raised (s : State) (e : Entry) : (s.takePost e).raised = s.raised := by
  unfold State.takePost State.place State.hold State.refold
  split
  · rfl
  · split
    · split
      · rfl
      · split
        · rfl
        · split <;> rfl
    · split <;> rfl

theorem KeepsFront.post {l : List Instr} (hl : ∀ e ∈ l, isHoldoffExpiry e = false) (s : State) (cls : Nat)
    (n : Notice) : KeepsFront l s (s.post cls n) := by
  have htake : KeepsFront l s (s.takeSerial.takePost (s.postEntry cls n)) := fun h => by
    rw [State.takePost_raised]
    exact h
  exact htake.trans (.follow hl _)

theorem KeepsFront.postLevels {l : List Instr} (hl : ∀ e ∈ l, isHoldoffExpiry e = false) (s : State)
    (zs : List ZoneState) : KeepsFront l s (s.postLevels zs) := by
  induction zs generalizing s with
  | nil => exact id
  | cons z zs ih =>
    unfold State.postLevels
    simp only
    split
    · exact ih s
    · exact (KeepsFront.post hl _ _ _).trans (ih _)

theorem KeepsFront.enterOperating {l : List Instr} (hl : ∀ e ∈ l, isHoldoffExpiry e = false) (s : State) :
    KeepsFront l s s.enterOperating :=
  .trans (t := s.mapScs fun c => { c with station := .operating }) id
    ((KeepsFront.postLevels hl _ _).trans (.follow hl _))

theorem KeepsFront.boundaryNotice {l : List Instr} (hl : ∀ e ∈ l, isHoldoffExpiry e = false) (s : State) :
    KeepsFront l s s.boundaryNotice := by
  unfold State.boundaryNotice
  simp only
  change KeepsFront l s (ite _ _ _ : State)
  split
  · split
    · exact .trans (t := s.mapScs _) id (.enterOperating hl _)
    · exact id
  · exact id

/-- The events of a step go before all that waits. -/
theorem boundary_stepEvents {s : State} {c : Int} (h : correction s.prt.offsets = some c)
    (hj : s.scs.station = .joining) (hc : 250 < c.natAbs) :
    stepEvents (stepPasses s.scs.own s.prt.time c) <+: s.boundaryTaken.raised := by
  generalize hl : stepEvents (stepPasses s.scs.own s.prt.time c) = l
  have hplain : ∀ e ∈ l, isHoldoffExpiry e = false := fun e he => by
    rw [← hl] at he
    unfold stepEvents at he
    split at he <;> simp only [List.mem_cons, List.not_mem_nil, or_false] at he
    · obtain rfl | rfl := he <;> rfl
    · rw [he]
      rfl
  have hcorr : l <+: s.settled.raised := by
    change l <+: s.corrected.raised
    rw [State.corrected_step h hj hc, ← hl]
    exact List.prefix_append _ _
  have hepoch : l <+: s.epochBoundary.raised := by
    rw [State.epochBoundary_eq]
    exact KeepsFront.boundaryNotice hplain s.settled hcorr
  obtain ⟨n, hdead⟩ := s.boundaryTaken_deadlines
  rw [hdead]
  exact hepoch.trans (List.prefix_append _ _)


/-! #### The notices of the entry into OPERATING (R118) -/

/-- R118: the class and level of the notice of a zone above CLEAR. -/
def levelNotice (z : ZoneState) : Option (Nat × Level) :=
  if z.level = .clear then none else some (zoneClass .clear z.level, z.level)

theorem State.postLevels_eq (s : State) (zs : List ZoneState) : s.postLevels zs = s.postZones levelNotice zs := by
  induction zs generalizing s with
  | nil => rfl
  | cons z zs ih =>
    unfold State.postLevels
    simp only [ih]
    by_cases hl : z.level = .clear
    · rw [if_pos hl, State.postZones_cons_none s (if_pos hl)]
    · rw [if_neg hl, State.postZones_cons_some s (p := (zoneClass .clear z.level, z.level)) (if_neg hl)]

/-- A post adds one entry at most, of its own key. -/
theorem State.post_bounds (s : State) (cls : Nat) (n : Notice) :
    (s.post cls n).nq.entries.length ≤ s.nq.entries.length + 1 ∧
    ∀ e ∈ (s.post cls n).nq.entries, e.key = n.key ∨ ∃ x ∈ s.nq.entries, e.key = x.key := by
  have hremove : ∀ v : Entry, (removeOrder v.order s.nq.entries).length ≤ s.nq.entries.length := fun v =>
    List.length_filter_le _ _
  have hmem : ∀ (v e : Entry), e ∈ removeOrder v.order s.nq.entries → e.key = n.key ∨ ∃ x ∈ s.nq.entries, e.key = x.key :=
    fun v e he => .inr ⟨e, (mem_removeOrder.1 he).1, rfl⟩
  have hsame : s.nq.entries.length ≤ s.nq.entries.length + 1 ∧
      ∀ e ∈ s.nq.entries, e.key = n.key ∨ ∃ x ∈ s.nq.entries, e.key = x.key :=
    ⟨Nat.le_succ _, fun e he => .inr ⟨e, he, rfl⟩⟩
  rw [State.post_nq]
  change (s.takeSerial.takePost (s.postEntry cls n)).nq.entries.length ≤ _ ∧ _
  unfold State.takePost
  split
  · exact hsame
  · split
    · unfold State.place
      split
      · refine ⟨(insertEntry_length _ _).le, fun e he => ?_⟩
        exact (mem_insertEntry.1 he).elim (fun h => .inl (h ▸ rfl)) fun h => hsame.2 e h
      · split
        · exact hsame
        · next v _ =>
          split
          · refine ⟨(insertEntry_length _ _).le.trans (Nat.succ_le_succ (hremove v)), fun e he => ?_⟩
            exact (mem_insertEntry.1 he).elim (fun h => .inl (h ▸ rfl)) (hmem v e)
          · exact hsame
    · next x hx =>
      have hk : n.key = x.key := (State.entryOf_key hx).symm
      have hy : (foldNotice x n cls).key = n.key := (foldNotice_key hk cls).trans hk.symm
      split
      · exact hsame
      · unfold State.refold refoldEntry
        simp only [State.setEntries_eq, State.mapNq_nq]
        split
        · exact ⟨(hremove x).trans (Nat.le_succ _), hmem x⟩
        · split
          · refine ⟨(List.length_map _).le.trans (Nat.le_succ _), fun e he => ?_⟩
            obtain ⟨e', he', rfl⟩ := List.mem_map.1 he
            split
            · exact .inl hy
            · exact hsame.2 e' he'
          · refine ⟨(insertEntry_length _ _).le.trans (Nat.succ_le_succ (hremove x)), fun e he => ?_⟩
            exact (mem_insertEntry.1 he).elim (fun h => .inl (h ▸ hy)) (hmem x e)

/-- R189: a fault event that abandons no frame posts one PRESENCE at most. -/
theorem State.faultEvent_bounds (s : State) {f : FaultFlag} (hf : f ≠ .duplicateStation) :
    (s.faultEvent f).nq.entries.length ≤ s.nq.entries.length + 1 ∧
    ∀ e ∈ (s.faultEvent f).nq.entries, e.key = .presence ∨ ∃ x ∈ s.nq.entries, e.key = x.key := by
  have hsame : s.nq.entries.length ≤ s.nq.entries.length + 1 ∧
      ∀ e ∈ s.nq.entries, e.key = .presence ∨ ∃ x ∈ s.nq.entries, e.key = x.key :=
    ⟨Nat.le_succ _, fun e he => .inr ⟨e, he, rfl⟩⟩
  unfold State.faultEvent
  simp only [if_neg hf]
  split
  · exact hsame
  · generalize hs1 : s.mapScs (fun c => { c with faults := c.faults.set f, quietEpoch := false }) = s1
    have hnq : s1.nq = s.nq := by rw [← hs1]; rfl
    split
    · have hbounds := State.post_bounds (s1.mapScs fun c => { c with healthArm := false }) 4 .presence
      rw [State.mapScs_nq, hnq] at hbounds
      exact hbounds
    · rw [hnq]
      exact hsame

/-- What the correction of a boundary does: nothing, a step, or a slew. -/
theorem State.corrected_cases (s : State) : s.corrected = s ∨
    (∃ c, s.corrected = (s.mapPrt fun p => { p with lastCorr := some c }).stepTime c) ∨
    ∃ c, s.corrected = (s.mapPrt fun p => p.slewedBy c).faultEvent .timeRail ∨
      s.corrected = s.mapPrt fun p => p.slewedBy c := by
  cases h : correction s.prt.offsets with
  | none => exact .inl (State.corrected_none h)
  | some c =>
    by_cases hstep : s.scs.station = .joining ∧ 250 < c.natAbs
    · exact .inr (.inl ⟨c, State.corrected_step h hstep.1 hstep.2⟩)
    · refine .inr (.inr ⟨c, ?_⟩)
      rw [State.corrected_slew h (slews_of_not_step hstep)]
      split
      · exact .inl rfl
      · exact .inr rfl

/-- The queue that the boundary notice finds holds one PRESENCE more at most. -/
theorem State.corrected_entries {s : State} (hkeys : ∀ e ∈ s.nq.entries, e.key = .presence) :
    s.corrected.nq.entries.length ≤ s.nq.entries.length + 1 ∧ ∀ e ∈ s.corrected.nq.entries, e.key = .presence := by
  have hsame : s.nq.entries.length ≤ s.nq.entries.length + 1 ∧ ∀ e ∈ s.nq.entries, e.key = .presence :=
    ⟨Nat.le_succ _, hkeys⟩
  obtain h | ⟨c, h⟩ | ⟨c, h | h⟩ := s.corrected_cases <;> rw [h]
  · exact hsame
  · exact hsame
  · obtain ⟨hlen, hmem⟩ := State.faultEvent_bounds (s.mapPrt fun p => p.slewedBy c) (f := .timeRail) nofun
    exact ⟨hlen, fun e he => (hmem e he).elim id fun ⟨x, hx, hk⟩ => hk.trans (hkeys x hx)⟩
  · exact hsame

/-- R103: a correction leaves number and level of the zone states. -/
theorem State.corrected_zones (s : State) : ∃ f : ZoneState → ZoneState,
    s.corrected.zev.zones = s.zev.zones.map f ∧ ∀ z, (f z).zone = z.zone ∧ (f z).level = z.level := by
  obtain h | ⟨c, h⟩ | ⟨c, h | h⟩ := s.corrected_cases <;> rw [h]
  · exact ⟨id, (List.map_id _).symm, fun z => ⟨rfl, rfl⟩⟩
  · exact ⟨_, rfl, fun z => ⟨rfl, rfl⟩⟩
  · rw [State.faultEvent_only]
    exact ⟨id, (List.map_id _).symm, fun z => ⟨rfl, rfl⟩⟩
  · exact ⟨id, (List.map_id _).symm, fun z => ⟨rfl, rfl⟩⟩

/-- R118: at the entry into OPERATING each zone above CLEAR has its notice queued. -/
theorem boundary_posts {s : State} (hj : s.scs.station = .joining) (h1 : s.scs.joining = 1)
    (hz : (s.zev.zones.map (·.zone)).Nodup) (hz4 : s.zev.zones.length ≤ 4) (hlen : s.nq.entries.length ≤ 3)
    (hkeys : ∀ e ∈ s.nq.entries, e.key = .presence) {z : ZoneState} (hmem : z ∈ s.zev.zones) :
    (z.level = .clear → s.boundaryTaken.entryOf (.zone z.zone) = none) ∧
    (z.level ≠ .clear → ∃ e ∈ s.boundaryTaken.nq.entries, e.notice = .zone z.zone z.level ∧
      e.cls = (if z.level = .alarm then 0 else 2) ∧ e.postTime = s.boundaryTaken.prt.time) := by
  obtain ⟨f, hzones, hf⟩ := s.corrected_zones
  obtain ⟨hclen, hckeys⟩ := State.corrected_entries hkeys
  obtain ⟨hprt, -, -, -, hnq⟩ := s.boundaryTaken_blocks
  let u : State := (s.settled.mapScs fun c => { c with joining := c.joining + 1 }).mapScs fun c =>
    { c with station := .operating }
  have hcscs : s.corrected.scs.station = .joining ∧ s.corrected.scs.joining = 1 := by
    rw [s.corrected_scs]
    split
    · exact ⟨hj, h1⟩
    · exact ⟨hj, h1⟩
  have hqueue : s.boundaryTaken.nq = (u.postZones levelNotice u.zev.zones).nq := by
    rw [hnq, State.epochBoundary_eq, ← State.postLevels_eq]
    change s.settled.boundaryNotice.nq = _
    unfold State.boundaryNotice
    rw [if_pos (show s.settled.scs.station = .joining from hcscs.1)]
    simp only
    have h2 : 2 ≤ (s.settled.mapScs fun c => { c with joining := c.joining + 1 }).scs.joining := by
      change 2 ≤ s.corrected.scs.joining + 1
      rw [hcscs.2]
    rw [if_pos h2]
    exact State.follow_nq _
  have htime : s.boundaryTaken.prt.time = u.prt.time := by rw [hprt]; rfl
  have huzones : u.zev.zones = s.zev.zones.map f := hzones
  have hunodup : (u.zev.zones.map (·.zone)).Nodup := by
    rw [huzones, List.map_map, show (fun x : ZoneState => x.zone) ∘ f = fun x => x.zone from funext fun y => (hf y).1]
    exact hz
  have hnew : ∀ y ∈ u.zev.zones, u.entryOf (.zone y.zone) = none := fun y _ =>
    State.entryOf_none.2 fun e he hk => nomatch (hckeys e he).symm.trans hk
  have hroom : u.nq.entries.length + u.zev.zones.length ≤ 8 := by
    rw [huzones, List.length_map]
    change s.corrected.nq.entries.length + _ ≤ 8
    omega
  obtain ⟨k, hk⟩ := List.mem_iff_getElem?.1 hmem
  have hk' : u.zev.zones[k]? = some (f z) := by
    rw [huzones, List.getElem?_map, hk]
    rfl
  obtain ⟨hnone, hsome⟩ := State.postZones_entries (g := levelNotice) (show u.scs.station ≠ .joining from nofun) hunodup
    hnew hroom hk'
  rw [(hf z).1] at hnone hsome
  have hentry : ∀ key, s.boundaryTaken.entryOf key = (u.postZones levelNotice u.zev.zones).entryOf key := fun key => by
    unfold State.entryOf
    rw [hqueue]
  refine ⟨fun hl => ?_, fun hl => ?_⟩
  · rw [hentry]
    exact hnone (if_pos ((hf z).2.trans hl))
  · have hl' : (f z).level ≠ .clear := by rw [(hf z).2]; exact hl
    have he := hsome _ (if_neg hl')
    rw [(hf z).2] at he
    refine ⟨_, hqueue ▸ State.entryOf_mem he, rfl, ?_, htime.symm⟩
    change zoneClass .clear z.level = _
    have hpos : Level.clear.toNat < z.level.toNat := by
      cases hlev : z.level with
      | clear => exact absurd hlev hl
      | watch => decide
      | warn => decide
      | alarm => decide
    unfold zoneClass
    rw [if_pos hpos]

/-! #### The parts of O54 -/

/-- R166–R169: common time's counters after a boundary with a correction. -/
theorem boundary_correction {s : State} {c : Int} (h : correction s.prt.offsets = some c) :
    s.boundaryTaken.prt.lastCorr = some c ∧
    s.boundaryTaken.prt.lockCount = (if c.natAbs ≤ 4 then min (s.prt.lockCount + 1) 3 else 0) ∧
    s.boundaryTaken.prt.lock = (if s.boundaryTaken.prt.lockCount = 3 then .locked else .pulling) := by
  have hprt := s.boundaryTaken_blocks.1
  have hlast : s.corrected.prt.lastCorr = some c := by
    by_cases hstep : s.scs.station = .joining ∧ 250 < c.natAbs
    · rw [State.corrected_step h hstep.1 hstep.2]
      rfl
    · rw [State.corrected_slew_faults h (slews_of_not_step hstep)]
      rfl
  rw [hprt]
  simp only [State.settled, State.mapPrt, h, lockAfter]
  exact ⟨hlast, trivial, trivial⟩

theorem adjustTrim_eq (trim c : Int) : adjustTrim trim c =
    if 2 < c ∧ trim < 64 then trim + 1 else if c < -2 ∧ -64 < trim then trim - 1 else trim := by
  unfold adjustTrim
  simp only [Config.trimMax]
  split_ifs <;> omega

/-- R167, R103: a boundary that steps. -/
theorem boundary_step {s : State} {c : Int} (h : correction s.prt.offsets = some c)
    (hj : s.scs.station = .joining) (hc : 250 < c.natAbs) :
    s.boundaryTaken.prt.time = s.prt.time + BitVec.ofInt 32 c ∧ s.boundaryTaken.prt.trim = s.prt.trim ∧
    s.boundaryTaken.prt.slew = s.prt.slew ∧ s.boundaryTaken.zev.received = s.zev.received ∧
    s.boundaryTaken.zev.zones = (s.zev.zones.map fun z =>
      let d := s.boundaryTaken.prt.time + seconds (zoneRec s.tables z.zone).holdTime
      { z with hold := z.hold.map fun _ => d, lostDeadline := z.lostDeadline.map fun _ => d }) ∧
    (∃ l, s.boundaryTaken.raised = .tick :: l) ∧
    (0 < c ∧ untilSchedule s.scs.own s.prt.time ≤ c.natAbs ∨
        s.boundaryTaken.prt.time.toNat % 8000 = s.scs.own * 200 →
      ∃ l, s.boundaryTaken.raised = .tick :: .schedulePoint :: l) := by
  obtain ⟨hprt, hzev, -, -, -⟩ := s.boundaryTaken_blocks
  have hcorr := State.corrected_step h hj hc
  have htime : s.boundaryTaken.prt.time = s.prt.time + BitVec.ofInt 32 c := by
    rw [hprt]
    change s.corrected.prt.time = _
    rw [hcorr]
    rfl
  obtain ⟨k, hfront⟩ := boundary_stepEvents h hj hc
  refine ⟨htime, ?_, ?_, ?_, ?_, ?_, fun hpass => ?_⟩
  · rw [hprt]
    change s.corrected.prt.trim = _
    rw [hcorr]
    rfl
  · rw [hprt]
    change s.corrected.prt.slew = _
    rw [hcorr]
    rfl
  · rw [hzev, hcorr]
    rfl
  · rw [hzev, hcorr, htime]
    rfl
  · rw [← hfront]
    unfold stepEvents
    split
    · exact ⟨_, rfl⟩
    · exact ⟨_, rfl⟩
  · have hpasses : stepPasses s.scs.own s.prt.time c = true := by
      rw [htime] at hpass
      unfold stepPasses
      rw [Bool.or_eq_true, Bool.and_eq_true]
      refine hpass.imp (fun ⟨hpos, hle⟩ => ⟨decide_eq_true hpos, decide_eq_true ?_⟩) fun hat => decide_eq_true hat
      omega
    rw [← hfront, hpasses]
    exact ⟨_, rfl⟩

/-- R168, R169: a boundary that slews. -/
theorem boundary_slew {s : State} {c : Int} (h : correction s.prt.offsets = some c)
    (hc : s.scs.station ≠ .joining ∨ c.natAbs ≤ 250) :
    s.boundaryTaken.prt.time = s.prt.time ∧ s.boundaryTaken.prt.slew = max (-8) (min 8 c) ∧
    s.boundaryTaken.zev = s.zev ∧ s.boundaryTaken.prt.trim =
      (if 2 < c ∧ s.prt.trim < 64 then s.prt.trim + 1
        else if c < -2 ∧ -64 < s.prt.trim then s.prt.trim - 1 else s.prt.trim) := by
  obtain ⟨hprt, hzev, -, -, -⟩ := s.boundaryTaken_blocks
  have hfaults := State.corrected_slew_faults h hc
  have hcp : s.corrected.prt = s.prt.slewedBy c := by
    rw [hfaults]
    rfl
  have hfields : s.boundaryTaken.prt.time = s.corrected.prt.time ∧ s.boundaryTaken.prt.slew = s.corrected.prt.slew ∧
      s.boundaryTaken.prt.trim = s.corrected.prt.trim := by
    rw [hprt]
    exact ⟨rfl, rfl, rfl⟩
  rw [hcp] at hfields
  obtain ⟨htime, hslew, htrim⟩ := hfields
  refine ⟨htime, hslew, ?_, ?_⟩
  · rw [hzev, hfaults]
    rfl
  · rw [← adjustTrim_eq]
    exact htrim

theorem State.corrected_roster (s : State) : s.corrected.prt.roster = s.prt.roster := by
  obtain h | ⟨c, h⟩ | ⟨c, h | h⟩ := s.corrected_cases <;> rw [h]
  · rfl
  · rw [State.faultEvent_only]
    rfl
  · rfl

theorem State.epochBoundary_prt (s : State) : s.epochBoundary.prt = s.settled.prt := s.epochBoundary_posts.prt

theorem State.epochBoundary_roster (s : State) : s.epochBoundary.prt.roster = s.prt.roster := by
  rw [State.epochBoundary_prt]
  exact s.corrected_roster

/-- R75, R162: without a step a boundary passes no deadline. -/
theorem boundary_unstepped {s : State} (h : s.boundaryTaken.prt.time = s.prt.time) :
    s.boundaryTaken.tracks = s.tracks ∧ s.boundaryTaken.prt.roster = s.prt.roster := by
  have htime : s.epochBoundary.prt.time = s.prt.time := by
    rw [s.boundaryTaken_deadlines.prt] at h
    exact h
  rw [State.boundaryTaken_same htime]
  exact ⟨s.epochBoundary_tracks, s.epochBoundary_roster⟩

/-- R75, R162: with a step every deadline that the stepped time has reached passes. -/
theorem boundary_stepped {s : State} (h : s.boundaryTaken.prt.time ≠ s.prt.time) :
    DeadlinesPassed s s.boundaryTaken ∧
    ∃ l, s.boundaryTaken.raised = l ++ passedEvents s s.boundaryTaken.prt.time := by
  have htime : s.epochBoundary.prt.time ≠ s.prt.time := by
    rw [s.boundaryTaken_deadlines.prt] at h
    exact h
  have htables : s.tables = s.epochBoundary.tables := by rw [s.epochBoundary_only]
  have hrec : s.zev.received = s.epochBoundary.zev.received := by rw [s.epochBoundary_only]
  have hroster := s.epochBoundary_roster.symm
  rw [State.boundaryTaken_stepped htime]
  refine ⟨(State.passDeadlines_passed _).congr htables s.epochBoundary_tracks.symm hroster rfl rfl rfl rfl,
    s.epochBoundary.raised, ?_⟩
  rw [State.passDeadlines_raised, State.passDeadlines_time,
    passedEvents_congr htables s.epochBoundary_tracks.symm hroster hrec]

/-- R166, R170: a boundary without offsets frees the lock and does no more to common time. -/
theorem boundary_unheard {s : State} (h : s.prt.offsets = []) :
    s.boundaryTaken.prt = { s.prt with lock := .free, lockCount := 0 } := by
  have hnone := (correction_none_iff _).2 h
  have hsettled : s.settled.prt = { s.prt with lock := .free, lockCount := 0 } := by
    unfold State.settled
    rw [State.corrected_none hnone, hnone, ← h]
    rfl
  have htime : s.boundaryTaken.prt.time = s.prt.time := by
    rw [s.boundaryTaken_blocks.1, hsettled]
  rw [s.boundaryTaken_blocks.1, (boundary_unstepped htime).2, hsettled]

/-- R103: the second boundary in JOINING enters OPERATING. -/
theorem boundary_station (s : State) :
    (s.scs.station = .joining → s.scs.joining = 0 →
      s.boundaryTaken.scs.station = .joining ∧ s.boundaryTaken.scs.joining = 1) ∧
    (s.scs.station = .joining → s.scs.joining = 1 → s.boundaryTaken.scs.station = .operating) ∧
    (s.scs.station ≠ .joining → s.boundaryTaken.scs.station = s.scs.station) := by
  have hcorr : s.corrected.scs.station = s.scs.station ∧ s.corrected.scs.joining = s.scs.joining := by
    rw [s.corrected_scs]
    split
    · exact ⟨rfl, rfl⟩
    · exact ⟨rfl, rfl⟩
  have hstation : s.boundaryTaken.scs.station = if s.corrected.scs.station = .joining ∧
      1 ≤ s.corrected.scs.joining then .operating else s.corrected.scs.station := by
    rw [s.boundaryTaken_blocks.2.2.1]
    rfl
  have hcount : s.boundaryTaken.scs.joining = if s.corrected.scs.station = .joining then
      s.corrected.scs.joining + 1 else s.corrected.scs.joining := by
    rw [s.boundaryTaken_blocks.2.2.1]
    rfl
  rw [hstation, hcount, hcorr.1, hcorr.2]
  refine ⟨fun hj h0 => ?_, fun hj h1 => ?_, fun hj => ?_⟩
  · simp [hj, h0]
  · simp [hj, h1]
  · simp [hj]

/-- R187, R189: TIME_RAIL and the health arm after a boundary. -/
theorem boundary_health (s : State) :
    (s.prt.timeRail = true ∨ s.boundaryTaken.prt.timeRail = false → s.boundaryTaken.scs.faults = s.scs.faults ∧
      s.boundaryTaken.scs.healthArm = (s.scs.healthArm || s.scs.quietEpoch)) ∧
    (s.prt.timeRail = false → s.boundaryTaken.prt.timeRail = true →
      s.boundaryTaken.scs.faults = s.scs.faults.set .timeRail ∧
      s.boundaryTaken.scs.healthArm = (s.scs.healthArm && s.scs.faults.timeRail)) := by
  have hrail : s.boundaryTaken.prt.timeRail = s.corrected.prt.timeRail := by
    rw [s.boundaryTaken_blocks.1]
    rfl
  have hfaults : s.boundaryTaken.scs.faults = s.corrected.scs.faults := by
    rw [s.boundaryTaken_blocks.2.2.1]
    rfl
  have harm : s.boundaryTaken.scs.healthArm = (s.corrected.scs.healthArm || s.corrected.scs.quietEpoch) := by
    rw [s.boundaryTaken_blocks.2.2.1]
    rfl
  rw [hrail, hfaults, harm, s.corrected_scs]
  refine ⟨fun h => ?_, fun h0 h1 => ?_⟩
  · rw [if_neg]
    · exact ⟨rfl, rfl⟩
    · obtain h | h := h <;> simp [h]
  · rw [if_pos (by simp [h0, h1])]
    exact ⟨rfl, Bool.or_false _⟩

/-- R189: the quiet-epoch mark after a boundary. -/
theorem boundary_quiet (s : State) : s.boundaryTaken.scs.quietEpoch = true ↔
    ¬(s.sfe.silentRun = 2400 ∨ 8 ≤ s.sfe.vaneRecord.countP id ∨ s.sfe.lampLow = 20 ∨
      s.boundaryTaken.prt.trim = 64 ∨ s.boundaryTaken.prt.trim = -64) := by
  have hsfe : s.settled.sfe = s.sfe := by
    change s.corrected.sfe = _
    obtain h | ⟨c, h⟩ | ⟨c, h | h⟩ := s.corrected_cases <;> rw [h]
    · rfl
    · rw [State.faultEvent_only]
      rfl
    · rfl
  have htrim : s.boundaryTaken.prt.trim = s.settled.prt.trim := by rw [s.boundaryTaken_blocks.1]
  have habs : ∀ x : Int, x.natAbs = 64 ↔ x = 64 ∨ x = -64 := fun x => Int.natAbs_eq_iff
  rw [s.boundaryTaken_blocks.2.2.1, htrim]
  change (!s.settled.conditionPresent) = true ↔ _
  rw [Bool.not_eq_true', ← Bool.not_eq_true]
  refine not_congr ?_
  unfold State.conditionPresent Sfe.anemoSilent Sfe.vaneErratic Sfe.dustLamp Prt.timeRail
  rw [hsfe]
  simp only [Bool.or_eq_true, decide_eq_true_iff, or_assoc]
  exact or_congr Iff.rfl (or_congr Iff.rfl (or_congr Iff.rfl (habs _)))

/-- Settles O54: each clause from what a boundary leaves of its block. -/
theorem epochBoundarySettles : Obligations.EpochBoundarySettles := by
  intro s hrst
  let u := s.takeEvent fun e => decide (e = .epochBoundary)
  obtain ⟨hprt, -, -, htables, -⟩ := u.boundaryTaken_blocks
  obtain ⟨hfirst, hsecond, hother⟩ := boundary_station u
  obtain ⟨hquiet, hrail⟩ := boundary_health u
  refine ⟨u.boundaryTaken, congrArg _ (State.unlessHeld_high (s := u) hrst _), ?_, htables, boundary_unstepped,
    boundary_stepped, correction_none_iff _, boundary_unheard (s := u), fun c hc => ?_, hfirst, fun hj h1 => ?_, hother,
    hquiet, hrail, boundary_quiet u⟩
  · rw [hprt]
    rfl
  · obtain ⟨hlast, hcount, hlock⟩ := boundary_correction (s := u) hc
    exact ⟨hlast, hcount, hlock, boundary_step (s := u) hc, boundary_slew (s := u) hc⟩
  · exact ⟨hsecond hj h1, fun _ hz hz4 hlen hkeys _ hmem => boundary_posts (s := u) hj h1 hz hz4 hlen hkeys hmem⟩

end Sys2Proof.Machine

/-! ### Pulses and returning lines (O25, O23) -/

namespace Sys2Proof.Machine

theorem min_succ_eq (n k : Nat) : min (n + 1) k = if n < k then n + 1 else k := by
  split <;> omega

/-- R20: a pulse at a channel, as a count that stops at 255 while the channel is in service. -/
theorem pulsed_count (b : Bool) (n : Nat) :
    (if b then min (n + 1) 255 else n) = if b ∧ n < 255 then n + 1 else if b then 255 else n := by
  cases b
  · simp
  · simp [min_succ_eq]

theorem Sfe.pulse_anemo (f : Sfe) :
    f.pulse .anemo = { f with anemoCount := if f.anemoIn then min (f.anemoCount + 1) 255 else f.anemoCount } := by
  unfold Sfe.pulse
  simp only
  split
  · rfl
  · rfl

theorem Sfe.pulse_dust (f : Sfe) :
    f.pulse .dust = { f with dustCount := if f.dustIn then min (f.dustCount + 1) 255 else f.dustCount } := by
  unfold Sfe.pulse
  simp only
  split
  · rfl
  · rfl

theorem exec_pulseEdge {s : State} (h : s.pins.rstLow = false) (line : PulseLine) :
    exec (.pulseEdge line) s = .next { s with sfe := s.sfe.pulse line } :=
  congrArg _ (State.unlessHeld_high (s := s) h _)

/-- Settles O25: a pulse at each of the two counting channels. -/
theorem pulseCounted : Obligations.PulseCounted := by
  intro s h
  constructor
  · rw [exec_pulseEdge h, Sfe.pulse_anemo, pulsed_count]
  · rw [exec_pulseEdge h, Sfe.pulse_dust, pulsed_count]

/-! #### A line that returns to service (R34) -/

theorem Sfe.bringIn_suppr {f : Sfe} (h : f.supprIn = false) (pins : Pins) (active : Bool) :
    f.bringIn .suppr pins active = { f with
      supprIn := true, supprLevel := pins.suppr, supprFilter := 0
      latch := f.latch || (decide (f.supprLevel ≠ active) && decide (pins.suppr = active)) } :=
  if_neg fun hin : f.supprIn = true => Bool.false_ne_true (h.symm.trans hin)

theorem Sfe.bringIn_ack {f : Sfe} (h : f.ackIn = false) (pins : Pins) (active : Bool) :
    f.bringIn .ack pins active = { f with ackIn := true, ackLevel := pins.ack, ackFilter := 0 } :=
  if_neg fun hin : f.ackIn = true => Bool.false_ne_true (h.symm.trans hin)

theorem Sfe.bringIn_lamp {f : Sfe} (h : f.lampIn = false) (pins : Pins) (active : Bool) :
    f.bringIn .lamp pins active = { f with
      lampIn := true, lampLow := if pins.lamp then 0 else if f.dustLamp then 20 else 0 } :=
  if_neg fun hin : f.lampIn = true => Bool.false_ne_true (h.symm.trans hin)

/-- R34: the ACK pending flag after ACK returns. -/
theorem State.channelIn_ack {s : State} (h : s.sfe.ackIn = false) :
    (s.channelIn .ack).sfe.ackLevel = s.pins.ack ∧
    (s.channelIn .ack).sfe.ackPending = (s.sfe.ackPending ||
      (decide (s.pins.ack ≠ s.sfe.ackLevel) && decide (s.pins.ack = s.ownRec.ackRising))) := by
  unfold State.channelIn
  simp only [h, decide_true, Bool.not_false, Bool.true_and]
  by_cases hset : (decide (s.pins.ack ≠ s.sfe.ackLevel) && decide (s.pins.ack = s.ownRec.ackRising)) = true
  · rw [if_pos hset, State.setAckPending_sfe, State.mapSfe_sfe, Sfe.bringIn_ack h, hset, Bool.or_true]
    exact ⟨rfl, rfl⟩
  · rw [if_neg hset, State.mapSfe_sfe, Sfe.bringIn_ack h, Bool.eq_false_iff.2 hset, Bool.or_false]
    exact ⟨rfl, rfl⟩

/-- Settles O23: the channel named decides which of the three clauses applies. -/
theorem channelInCompares : Obligations.ChannelInCompares := by
  intro s hport hbusy
  by_cases hnone : ∀ c, s.scs.view ≠ .channel c
  · exact ⟨_, (exec_channel_unnamed hport hbusy hnone).2, fun h => absurd h (hnone _), fun h => absurd h (hnone _),
      fun h => absurd h (hnone _)⟩
  obtain ⟨c, hc⟩ := not_forall_not.1 hnone
  refine ⟨_, (exec_channel_named hport hbusy hc).2, fun hv hin => ?_, fun hv hin => ?_, fun hv hin => ?_⟩
  · obtain rfl : c = .suppr := View.channel.inj (hc.symm.trans hv)
    have hsfe := s.channelIn_sfe (c := .suppr) nofun
    rw [Sfe.bringIn_suppr hin] at hsfe
    exact ⟨congrArg Sfe.supprLevel hsfe, congrArg Sfe.latch hsfe⟩
  · obtain rfl : c = .ack := View.channel.inj (hc.symm.trans hv)
    exact State.channelIn_ack hin
  · obtain rfl : c = .lamp := View.channel.inj (hc.symm.trans hv)
    have hsfe := s.channelIn_sfe (c := .lamp) nofun
    rw [Sfe.bringIn_lamp hin] at hsfe
    have hdark : (s.sfe.dustLamp = true) = (s.sfe.lampLow = 20) := propext decide_eq_true_iff
    simp only [← hdark]
    exact congrArg Sfe.lampLow hsfe

end Sys2Proof.Machine

/-! ### The sample (R19–R36, O26, O27) -/

namespace Sys2Proof.Machine

/-! #### SFE's part of a sample, channel by channel -/

/-- `f` with the record of ANEMO as `g` holds it. -/
def Sfe.withAnemo (f g : Sfe) : Sfe := { f with
  lastAnemo := g.lastAnemo, anemoCount := g.anemoCount, anemoWindow := g.anemoWindow
  warming := g.warming, g3 := g.g3, s60 := g.s60 }

/-- `f` with the record of VANE as `g` holds it. -/
def Sfe.withVane (f g : Sfe) : Sfe := { f with
  raw := g.raw, accepted := g.accepted, sectorTaken := g.sectorTaken, candidate := g.candidate
  run := g.run, vanePrev := g.vanePrev, vaneRecord := g.vaneRecord }

/-- `f` with the record of DUST as `g` holds it. -/
def Sfe.withDust (f g : Sfe) : Sfe := { f with
  lastDust := g.lastDust, dustCount := g.dustCount, dustWindow := g.dustWindow, dustNumber := g.dustNumber }

/-- `f` with the lamp-low run as `g` holds it. -/
def Sfe.withLamp (f g : Sfe) : Sfe := { f with lampLow := g.lampLow }

theorem Sfe.sampleAnemo_in {f : Sfe} (h : f.anemoIn = true) (factor : Nat) : f.sampleAnemo factor = { f with
    lastAnemo := f.anemoCount, anemoCount := 0, anemoWindow := newest 240 (f.anemoWindow ++ [f.anemoCount])
    warming := min (f.warming + 1) 240, g3 := gustSpeed (newest 240 (f.anemoWindow ++ [f.anemoCount])) factor
    s60 := if min (f.warming + 1) 240 = 240 then
      some (meanSpeed (newest 240 (f.anemoWindow ++ [f.anemoCount])) factor) else none } := if_pos h

theorem Sfe.sampleAnemo_out {f : Sfe} (h : f.anemoIn = false) (factor : Nat) :
    f.sampleAnemo factor = { f with anemoCount := 0 } := if_neg (Bool.eq_false_iff.1 h)

theorem Sfe.sampleAnemo_frame (f : Sfe) (factor : Nat) :
    f.sampleAnemo factor = f.withAnemo (f.sampleAnemo factor) := by
  have hrecord : ∀ a b c d e g, ({ f with
      lastAnemo := a, anemoCount := b, anemoWindow := c, warming := d, g3 := e, s60 := g } : Sfe) = f.withAnemo { f with
      lastAnemo := a, anemoCount := b, anemoWindow := c, warming := d, g3 := e, s60 := g } :=
    fun _ _ _ _ _ _ => rfl
  cases h : f.anemoIn
  · rw [Sfe.sampleAnemo_out h]
    exact hrecord _ _ _ _ _ _
  · rw [Sfe.sampleAnemo_in h]
    exact hrecord _ _ _ _ _ _

theorem Sfe.acceptSector_withAnemo (f g : Sfe) (raw : Nat) :
    (f.withAnemo g).acceptSector raw = (f.withAnemo g).withVane (f.acceptSector raw) := by
  unfold Sfe.acceptSector
  simp only [show (f.withAnemo g).sectorTaken = f.sectorTaken from rfl,
    show (f.withAnemo g).accepted = f.accepted from rfl, show (f.withAnemo g).candidate = f.candidate from rfl,
    show (f.withAnemo g).run = f.run from rfl]
  split_ifs <;> rfl

theorem Sfe.sampleVane_withAnemo (f g : Sfe) (raw : Nat) :
    (f.withAnemo g).sampleVane raw = (f.withAnemo g).withVane (f.sampleVane raw) := by
  unfold Sfe.sampleVane
  have hrecord : ∀ (v : Sfe) a b c, ({ (f.withAnemo g).withVane v with
      raw := a, vanePrev := b, vaneRecord := c } : Sfe) = (f.withAnemo g).withVane { v with
      raw := a, vanePrev := b, vaneRecord := c } := fun _ _ _ _ => rfl
  rw [show (f.withAnemo g).vaneIn = f.vaneIn from rfl, Sfe.acceptSector_withAnemo]
  split
  · exact hrecord _ _ _ _
  · rfl

theorem Sfe.sampleLamp_withVane (f g v : Sfe) (lamp : Bool) :
    ((f.withAnemo g).withVane v).sampleLamp lamp = ((f.withAnemo g).withVane v).withLamp (f.sampleLamp lamp) := by
  unfold Sfe.sampleLamp
  rw [show ((f.withAnemo g).withVane v).lampIn = f.lampIn from rfl]
  split
  · rfl
  · rfl

theorem Sfe.sampleDust_withLamp (f g v l : Sfe) (factor : Nat) :
    (((f.withAnemo g).withVane v).withLamp l).sampleDust factor =
      (((f.withAnemo g).withVane v).withLamp l).withDust (f.sampleDust factor) := by
  unfold Sfe.sampleDust
  rw [show (((f.withAnemo g).withVane v).withLamp l).dustIn = f.dustIn from rfl]
  split
  · rfl
  · rfl

theorem Sfe.sampleSuppr_eq (f : Sfe) (active : Bool) :
    f.sampleSuppr active = { f with latch := f.latch || decide (f.supprLevel = active) } := by
  unfold Sfe.sampleSuppr
  split
  · next h => rw [decide_eq_true h, Bool.or_true]
  · next h => rw [decide_eq_false h, Bool.or_false]

/-- R35: the silent run after a sample whose ANEMO count is `count`. -/
def silentAfter (run count : Nat) : Option Nat → Nat
  | some v => if count = 0 ∧ 40 ≤ v then min (run + 1) 2400 else 0
  | none => 0

theorem Sfe.sampleSilent_eq (f : Sfe) (median : Option Nat) : f.sampleSilent median =
    { f with silentRun := if f.anemoIn then silentAfter f.silentRun f.lastAnemo median else f.silentRun } := by
  unfold Sfe.sampleSilent silentAfter
  split
  · cases median with
    | none => rfl
    | some v =>
      by_cases h : f.lastAnemo = 0 ∧ 40 ≤ v
      · simp only [if_pos h]
        exact if_pos h
      · simp only [if_neg h]
        exact if_neg h
  · rfl

/-- R19: SFE after a sample, each channel's record from that channel's own sample. -/
theorem State.sampleSfe_eq (s : State) (vane : BitVec 4) (lamp : Bool) : s.sampleSfe vane lamp =
    { (((s.sfe.withAnemo (s.sfe.sampleAnemo s.ownRec.speedFactor)).withVane
        (s.sfe.sampleVane (grayDecode vane))).withLamp (s.sfe.sampleLamp lamp)).withDust
        (s.sfe.sampleDust s.ownRec.dustFactor) with
      latch := s.sfe.latch || decide (s.sfe.supprLevel = s.ownRec.supprHigh)
      silentRun := if s.sfe.anemoIn then silentAfter s.sfe.silentRun
        (s.sfe.sampleAnemo s.ownRec.speedFactor).lastAnemo s.peerMedian else s.sfe.silentRun
      phase := 0 } := by
  unfold State.sampleSfe
  simp only
  rw [Sfe.sampleAnemo_frame, Sfe.sampleVane_withAnemo, Sfe.sampleLamp_withVane, Sfe.sampleDust_withLamp,
    Sfe.sampleSuppr_eq, Sfe.sampleSilent_eq]
  rfl

/-! #### Each channel in service and out -/

theorem Sfe.sampleVane_out {f : Sfe} (h : f.vaneIn = false) (raw : Nat) : f.sampleVane raw = f :=
  if_neg (Bool.eq_false_iff.1 h)

/-- R36: the change that a VANE sample records. -/
def Sfe.largeChange (f : Sfe) (raw : Nat) : Bool :=
  match f.vanePrev with
  | some p => decide (3 ≤ sectorDistance raw p)
  | none => false

theorem Sfe.sampleVane_in {f : Sfe} (h : f.vaneIn = true) (raw : Nat) : f.sampleVane raw =
    { f.acceptSector raw with
      raw := raw, vanePrev := some raw, vaneRecord := newest 240 (f.vaneRecord ++ [f.largeChange raw]) } := if_pos h

theorem Sfe.sampleLamp_in {f : Sfe} (h : f.lampIn = true) (lamp : Bool) :
    f.sampleLamp lamp = { f with lampLow := if lamp then 0 else min (f.lampLow + 1) 20 } := if_pos h

theorem Sfe.sampleLamp_out {f : Sfe} (h : f.lampIn = false) (lamp : Bool) : f.sampleLamp lamp = f :=
  if_neg (Bool.eq_false_iff.1 h)

theorem Sfe.sampleDust_in {f : Sfe} (h : f.dustIn = true) (factor : Nat) : f.sampleDust factor = { f with
    lastDust := f.dustCount, dustCount := 0, dustWindow := newest 4 (f.dustWindow ++ [f.dustCount])
    dustNumber := min ((newest 4 (f.dustWindow ++ [f.dustCount])).sum * factor / 16) 1023 } := if_pos h

theorem Sfe.sampleDust_out {f : Sfe} (h : f.dustIn = false) (factor : Nat) :
    f.sampleDust factor = { f with dustCount := 0 } := if_neg (Bool.eq_false_iff.1 h)

/-! #### Acceptance of a sector (R24) -/

section
variable {f : Sfe} {raw : Nat}

theorem Sfe.acceptSector_first (h : f.sectorTaken = false) :
    f.acceptSector raw = { f with accepted := raw, sectorTaken := true, run := 0 } :=
  if_pos (by rw [h]; rfl)

theorem Sfe.acceptSector_same (h : f.sectorTaken = true) (hr : raw = f.accepted) :
    f.acceptSector raw = { f with run := 0 } := by
  unfold Sfe.acceptSector
  rw [if_neg (by rw [h]; exact Bool.false_ne_true), if_pos hr]

theorem Sfe.acceptSector_fourth (h : f.sectorTaken = true) (hr : raw ≠ f.accepted) (hc : f.candidate = some raw)
    (hrun : f.run = 3) : f.acceptSector raw = { f with candidate := some raw, accepted := raw, run := 0 } := by
  unfold Sfe.acceptSector
  rw [if_neg (by rw [h]; exact Bool.false_ne_true), if_neg hr]
  simp [hc, hrun]

theorem Sfe.acceptSector_again (h : f.sectorTaken = true) (hr : raw ≠ f.accepted) (hc : f.candidate = some raw)
    (hrun : f.run < 3) : f.acceptSector raw = { f with candidate := some raw, run := f.run + 1 } := by
  unfold Sfe.acceptSector
  rw [if_neg (by rw [h]; exact Bool.false_ne_true), if_neg hr]
  simp only [hc, if_true]
  exact if_neg (by omega)

theorem Sfe.acceptSector_other (h : f.sectorTaken = true) (hr : raw ≠ f.accepted) (hc : f.candidate ≠ some raw) :
    f.acceptSector raw = { f with candidate := some raw, run := 1 } := by
  unfold Sfe.acceptSector
  rw [if_neg (by rw [h]; exact Bool.false_ne_true), if_neg hr]
  simp only [hc, if_false]
  exact if_neg (by decide)

end

/-! #### GDU's sample (R41–R45) -/

/-- The state that GDU's sample finds. -/
def State.sampleHeard (s : State) (vane : BitVec 4) (lamp : Bool) : State :=
  (s.sampled vane lamp).sampleFaults s.sfe (s.sampleSfe vane lamp)

theorem State.sample_heard (s : State) (vane : BitVec 4) (lamp : Bool) : s.sample vane lamp =
    (s.sampleHeard vane lamp).gduSample (s.sampleHeard vane lamp).sampleRecord := rfl

theorem State.sampleHeard_faults (s : State) (vane : BitVec 4) (lamp : Bool) :
    OnlyFaults (s.sampled vane lamp) (s.sampleHeard vane lamp) := State.sampleFaults_only _ _ _

theorem exec_sampleEvent {s : State} (h : s.pins.rstLow = false) (vane : BitVec 4) (lamp : Bool) :
    exec (.sampleEvent vane lamp) s = .next ((s.takeEvent isSampleEvent).sample vane lamp) :=
  congrArg _ (State.unlessHeld_high (s := s.takeEvent isSampleEvent) h _)

/-- R41: a sample without a full window. -/
theorem State.gduSample_unready {s : State} {r : SampleRecord} (h : r.ready = false) :
    s.gduSample r = s.setMode .notReady := by
  unfold State.gduSample
  rw [h]
  rfl

/-- R42: a sample in NOT_READY or QUIET. -/
theorem State.gduSample_idle {s : State} {r : SampleRecord} (h : r.ready = true)
    (hm : s.gdu.mode = .notReady ∨ s.gdu.mode = .quiet) :
    s.gduSample r = s.setMode (if s.qualifies r then .arming else .quiet) := by
  unfold State.gduSample
  obtain hm | hm := hm
  · rw [h, hm]
    rfl
  · rw [h, hm]
    rfl

/-- R43: a sample in ARMING. -/
theorem State.gduSample_arming {s : State} {r : SampleRecord} (h : r.ready = true) (hm : s.gdu.mode = .arming) :
    s.gduSample r = if s.qualifies r then s.onset r else s.setMode .quiet := by
  unfold State.gduSample
  rw [h, hm]
  rfl

/-- R45: a sample in EPISODE. -/
theorem State.gduSample_episode {s : State} {r : SampleRecord} {e : Episode} (h : r.ready = true)
    (hm : s.gdu.mode = .episode e) : s.gduSample r = s.episodeSample e r := by
  unfold State.gduSample
  rw [h, hm]
  rfl

theorem State.localNew_mode (s : State) (e : Episode) :
    ∃ track recorded, (s.localNew e).gdu.mode = .episode { e with track := track, recorded := recorded } := by
  unfold State.localNew
  split
  · exact ⟨e.track, e.recorded, rfl⟩
  · simp only
    rw [(State.post_only _ _ _).gdu]
    exact ⟨_, _, rfl⟩

/-- R43: the mode after an onset: the new episode record, but for the track it takes. -/
theorem State.onset_mode (s : State) (r : SampleRecord) : ∃ track recorded,
    (s.onset r).gdu.mode = .episode { s.newEpisode r with track := track, recorded := recorded } := by
  unfold State.onset
  simp only
  split
  · split
    · unfold State.localJoin
      simp only
      rw [(State.post_only _ _ _).gdu]
      exact ⟨_, _, rfl⟩
    · exact State.localNew_mode _ _
  · exact ⟨none, false, rfl⟩

theorem OnlyPosts.latch {s t : State} (h : OnlyPosts s t) : t.sfe.latch = s.sfe.latch := by rw [h]

theorem State.admission_latch (s : State) (q : Request) (peer : Bool) :
    (s.admission q peer).2.sfe.latch = s.sfe.latch := by rw [s.admission_only q peer]

/-- R44: the onset claims the latch. -/
theorem State.onset_latch (s : State) (r : SampleRecord) : (s.onset r).sfe.latch = false := by
  unfold State.onset
  simp only
  split
  · split
    · unfold State.localJoin
      simp only
      rw [(State.post_only _ _ _).latch]
      exact State.admission_latch _ _ _
    · unfold State.localNew
      split
      · rfl
      · simp only
        rw [(State.post_only _ _ _).latch]
        exact State.admission_latch _ _ _
  · rfl

theorem State.update_latch (s : State) (e : Episode) (u : Time) : (s.update e u).sfe.latch = s.sfe.latch := by
  unfold State.update
  split
  · rfl
  · split
    · simp only
      change (State.post _ _ _).sfe.latch = _
      rw [(State.post_only _ _ _).latch]
      exact State.admission_latch _ _ _
    · rfl

theorem State.episodeSample_latch (s : State) (e : Episode) (r : SampleRecord) :
    (s.episodeSample e r).sfe.latch = s.sfe.latch := by
  unfold State.episodeSample
  generalize (if s.qualifies r then 0 else e.quiet + 1) = quiet
  simp only
  split_ifs
  · rfl
  · exact State.update_latch _ _ _
  · rfl

/-- R41–R45: a sample that is no onset keeps the latch, and leaves ARMING without an episode. -/
theorem State.gduSample_cases (s : State) (r : SampleRecord) :
    (s.gdu.mode = .arming ∧ s.gduSample r = s.onset r) ∨
    ((s.gduSample r).sfe.latch = s.sfe.latch ∧
      (s.gdu.mode = .arming → ∀ e, (s.gduSample r).gdu.mode ≠ .episode e)) := by
  cases hr : r.ready with
  | false =>
    rw [State.gduSample_unready hr]
    exact .inr ⟨rfl, fun _ _ => nofun⟩
  | true =>
    cases hm : s.gdu.mode with
    | notReady =>
      rw [State.gduSample_idle hr (.inl hm)]
      exact .inr ⟨rfl, nofun⟩
    | quiet =>
      rw [State.gduSample_idle hr (.inr hm)]
      exact .inr ⟨rfl, nofun⟩
    | arming =>
      rw [State.gduSample_arming hr hm]
      split
      · exact .inl ⟨rfl, rfl⟩
      · exact .inr ⟨rfl, fun _ _ => nofun⟩
    | episode e =>
      rw [State.gduSample_episode hr hm]
      exact .inr ⟨s.episodeSample_latch e r, nofun⟩

/-- R19: SFE after a sample, but for the latch, which GDU may claim. -/
theorem State.sample_sfe (s : State) (vane : BitVec 4) (lamp : Bool) :
    (s.sample vane lamp).sfe = { s.sampleSfe vane lamp with latch := (s.sample vane lamp).sfe.latch } := by
  have hgdu := (State.gduSample_only (s.sampleHeard vane lamp) (s.sampleHeard vane lamp).sampleRecord).sfe
  rw [(s.sampleHeard_faults vane lamp).sfe] at hgdu
  exact hgdu

section
variable (s : State) (vane : BitVec 4) (lamp : Bool)

/-- R20–R22: the record of ANEMO after a sample. -/
theorem State.sample_anemo :
    let g := s.sfe.sampleAnemo s.ownRec.speedFactor
    (s.sample vane lamp).sfe.lastAnemo = g.lastAnemo ∧ (s.sample vane lamp).sfe.anemoCount = g.anemoCount ∧
    (s.sample vane lamp).sfe.anemoWindow = g.anemoWindow ∧ (s.sample vane lamp).sfe.warming = g.warming ∧
    (s.sample vane lamp).sfe.g3 = g.g3 ∧ (s.sample vane lamp).sfe.s60 = g.s60 := by
  rw [s.sample_sfe, s.sampleSfe_eq]
  exact ⟨rfl, rfl, rfl, rfl, rfl, rfl⟩

/-- R23, R24, R36: the record of VANE after a sample. -/
theorem State.sample_vane :
    let g := s.sfe.sampleVane (grayDecode vane)
    (s.sample vane lamp).sfe.raw = g.raw ∧ (s.sample vane lamp).sfe.accepted = g.accepted ∧
    (s.sample vane lamp).sfe.candidate = g.candidate ∧ (s.sample vane lamp).sfe.run = g.run ∧
    (s.sample vane lamp).sfe.vaneRecord = g.vaneRecord := by
  rw [s.sample_sfe, s.sampleSfe_eq]
  exact ⟨rfl, rfl, rfl, rfl, rfl⟩

/-- R25: the record of DUST after a sample. -/
theorem State.sample_dust :
    let g := s.sfe.sampleDust s.ownRec.dustFactor
    (s.sample vane lamp).sfe.dustCount = g.dustCount ∧ (s.sample vane lamp).sfe.dustWindow = g.dustWindow ∧
    (s.sample vane lamp).sfe.dustNumber = g.dustNumber := by
  rw [s.sample_sfe, s.sampleSfe_eq]
  exact ⟨rfl, rfl, rfl⟩

/-- R30, R35: the lamp-low run and the silent run after a sample, and the SUPPR level, which stays. -/
theorem State.sample_runs :
    (s.sample vane lamp).sfe.lampLow = (s.sfe.sampleLamp lamp).lampLow ∧
    (s.sample vane lamp).sfe.silentRun = (if s.sfe.anemoIn then silentAfter s.sfe.silentRun
      (s.sfe.sampleAnemo s.ownRec.speedFactor).lastAnemo s.peerMedian else s.sfe.silentRun) ∧
    (s.sample vane lamp).sfe.supprLevel = s.sfe.supprLevel := by
  rw [s.sample_sfe, s.sampleSfe_eq]
  exact ⟨rfl, rfl, rfl⟩

end

/-- R20–R22: the record of ANEMO after a sample of it in service. -/
theorem Sfe.sampleAnemo_follows {f : Sfe} (h : f.anemoIn = true) (factor : Nat) :
    let g := f.sampleAnemo factor
    g.anemoWindow = newest 240 (f.anemoWindow ++ [f.anemoCount]) ∧ g.lastAnemo = f.anemoCount ∧ g.anemoCount = 0 ∧
    g.warming = (if f.warming < 240 then f.warming + 1 else 240) ∧
    g.g3 = min ((newest 12 g.anemoWindow).sum * factor / 3) 600 ∧
    g.s60 = if g.warming = 240 then some (min (g.anemoWindow.sum * factor / 60) 600) else none := by
  rw [Sfe.sampleAnemo_in h, ← min_succ_eq]
  unfold gustSpeed meanSpeed
  simp only [and_self]

/-- Settles O26: ANEMO's record after a sample. -/
theorem sampleWind : Obligations.SampleWind := by
  intro vane lamp s hrst hin
  obtain ⟨hlast, hcount, hwindow, hwarming, hg3, hs60⟩ := (s.takeEvent isSampleEvent).sample_anemo vane lamp
  refine ⟨_, exec_sampleEvent hrst vane lamp, ?_⟩
  rw [hlast, hcount, hwindow, hwarming, hg3, hs60]
  exact Sfe.sampleAnemo_follows (f := s.sfe) hin _

/-! #### VANE, DUST, LAMP and the latch (O27) -/

/-- R23, R24: VANE's record after a sample of it in service, a sector having been taken. -/
theorem Sfe.sampleVane_follows {f : Sfe} (h : f.vaneIn = true) (ht : f.sectorTaken = true) (raw : Nat) :
    let g := f.sampleVane raw
    g.raw = raw ∧ (g.raw = f.accepted → g.run = 0 ∧ g.accepted = f.accepted ∧ g.candidate = f.candidate) ∧
    (g.raw ≠ f.accepted → f.candidate = some g.raw → f.run = 3 → g.accepted = g.raw ∧ g.run = 0) ∧
    (g.raw ≠ f.accepted → f.candidate = some g.raw → f.run < 3 →
      g.accepted = f.accepted ∧ g.run = f.run + 1) ∧
    (g.raw ≠ f.accepted → f.candidate ≠ some g.raw →
      g.accepted = f.accepted ∧ g.candidate = some g.raw ∧ g.run = 1) := by
  rw [Sfe.sampleVane_in h]
  refine ⟨rfl, fun hr => ?_, fun hr hc hrun => ?_, fun hr hc hrun => ?_, fun hr hc => ?_⟩
  · simp only [Sfe.acceptSector_same ht hr]
    exact ⟨trivial, trivial, trivial⟩
  · simp only [Sfe.acceptSector_fourth ht hr hc hrun]
    exact ⟨trivial, trivial⟩
  · simp only [Sfe.acceptSector_again ht hr hc hrun]
    exact ⟨trivial, trivial⟩
  · simp only [Sfe.acceptSector_other ht hr hc]
    exact ⟨trivial, trivial, trivial⟩

theorem State.sampled_latch (s : State) (vane : BitVec 4) (lamp : Bool) :
    (s.sampleHeard vane lamp).sfe.latch = (s.sfe.latch || decide (s.sfe.supprLevel = s.ownRec.supprHigh)) := by
  rw [(s.sampleHeard_faults vane lamp).sfe]
  change (s.sampleSfe vane lamp).latch = _
  rw [s.sampleSfe_eq]

theorem OnlyFaults.gdu {s t : State} (h : OnlyFaults s t) : t.gdu = s.gdu := by rw [h]

theorem State.sampleHeard_gdu (s : State) (vane : BitVec 4) (lamp : Bool) : (s.sampleHeard vane lamp).gdu = s.gdu :=
  (s.sampleHeard_faults vane lamp).gdu

/-- R27, R28, R44: the latch after a sample, and the onset's claim on it. -/
theorem State.sample_latch (s : State) (vane : BitVec 4) (lamp : Bool) :
    (¬(s.gdu.mode = .arming ∧ ∃ e, (s.sample vane lamp).gdu.mode = .episode e) →
      (s.sample vane lamp).sfe.latch = (s.sfe.latch || decide (s.sfe.supprLevel = s.ownRec.supprHigh))) ∧
    (s.gdu.mode = .arming → ∀ e, (s.sample vane lamp).gdu.mode = .episode e →
      (s.sample vane lamp).sfe.latch = false ∧
        e.w = (s.sfe.latch || decide (s.sfe.supprLevel = s.ownRec.supprHigh))) := by
  rw [State.sample_heard, ← s.sampleHeard_gdu vane lamp, ← s.sampled_latch vane lamp]
  generalize (s.sampleHeard vane lamp).sampleRecord = r
  obtain ⟨hm, honset⟩ | ⟨hlatch, hnone⟩ := (s.sampleHeard vane lamp).gduSample_cases r
  · obtain ⟨track, recorded, hmode⟩ := (s.sampleHeard vane lamp).onset_mode r
    rw [honset]
    refine ⟨fun h => absurd ⟨hm, _, hmode⟩ h, fun _ e he => ⟨State.onset_latch _ r, ?_⟩⟩
    obtain rfl := Mode.episode.inj (hmode.symm.trans he)
    rfl
  · exact ⟨fun _ => hlatch, fun hm e he => absurd he (hnone hm e)⟩

theorem State.sample_pins (s : State) (vane : BitVec 4) (lamp : Bool) :
    (s.sample vane lamp).pins = { s.pins with vane := vane, lamp := lamp } := by
  rw [State.sample_heard, State.gduSample_only, State.sampleHeard_faults]
  rfl

/-- R41: with ANEMO out of service the detector is not ready. -/
theorem State.sample_unready {s : State} (h : s.sfe.anemoIn = false) (vane : BitVec 4) (lamp : Bool) :
    (s.sample vane lamp).gdu = { s.gdu with mode := .notReady } := by
  have hin : (s.sampleHeard vane lamp).sfe.anemoIn = false := by
    rw [(s.sampleHeard_faults vane lamp).sfe]
    change (s.sampleSfe vane lamp).anemoIn = false
    rw [s.sampleSfe_eq]
    exact h
  have hr : (s.sampleHeard vane lamp).sampleRecord.ready = false := by
    unfold State.sampleRecord
    rw [hin]
    rfl
  rw [State.sample_heard, State.gduSample_unready hr, ← s.sampleHeard_gdu vane lamp]
  rfl

/-- Settles O27: the channels' records, the latch, and what no sample touches. -/
theorem sampleVaneDust : Obligations.SampleVaneDust := by
  intro vane lamp s hrst
  let u := s.takeEvent isSampleEvent
  obtain ⟨hraw, hacc, hcand, hrun, hrec⟩ := u.sample_vane vane lamp
  obtain ⟨hcount, hdwindow, hnumber⟩ := u.sample_dust vane lamp
  obtain ⟨hlast, -, hwindow, hwarming, hg3, hs60⟩ := u.sample_anemo vane lamp
  obtain ⟨hlamp, hsilent, hsuppr⟩ := u.sample_runs vane lamp
  obtain ⟨hkept, hclaimed⟩ := u.sample_latch vane lamp
  have honly := u.sample_only vane lamp
  refine ⟨u.sample vane lamp, exec_sampleEvent hrst vane lamp, fun hin ht => ?_, fun hin ht => ?_, fun hin => ?_,
    fun hin => ?_, ?_, hsuppr, hkept, hclaimed, ?_, ?_, ?_, ?_, ?_, ?_, fun hout => ?_, fun hout => ?_,
    fun hout => ?_, fun hout => ?_⟩
  · rw [hraw, hacc, hcand, hrun]
    exact Sfe.sampleVane_follows (f := s.sfe) hin ht _
  · rw [hacc, hrun, Sfe.sampleVane_in (f := u.sfe) hin, Sfe.acceptSector_first (f := u.sfe) ht]
    exact ⟨rfl, rfl⟩
  · rw [hcount, hdwindow, hnumber, Sfe.sampleDust_in (f := u.sfe) hin]
    exact ⟨rfl, rfl, rfl⟩
  · rw [hlamp, Sfe.sampleLamp_in (f := u.sfe) hin]
    simp only [min_succ_eq]
    rfl
  · unfold Sfe.dustIndex Sfe.dustLamp
    simp only [decide_eq_true_iff]
    rfl
  · rw [honly]
    rfl
  · rw [honly]
    rfl
  · rw [honly]
    rfl
  · rw [honly]
    rfl
  · exact u.sample_pins vane lamp
  · exact congrArg State.scs honly
  · rw [hwindow, hwarming, hg3, hs60, hsilent, Sfe.sampleAnemo_out (f := u.sfe) hout,
      if_neg (show ¬u.sfe.anemoIn = true from Bool.eq_false_iff.1 hout)]
    exact ⟨rfl, rfl, rfl, rfl, rfl, State.sample_unready (s := u) hout vane lamp⟩
  · rw [hraw, hacc, hcand, hrun, hrec, Sfe.sampleVane_out (f := u.sfe) hout]
    exact ⟨rfl, rfl, rfl, rfl, rfl⟩
  · rw [hdwindow, hnumber, Sfe.sampleDust_out (f := u.sfe) hout]
    exact ⟨rfl, rfl⟩
  · rw [hlamp, Sfe.sampleLamp_out (f := u.sfe) hout]
    rfl

end Sys2Proof.Machine

/-! ### Recognised lines, fault conditions and CLEAR FAULTS (O28, O21) -/

namespace Sys2Proof.Machine

/-! #### The filtered lines (R26–R29) -/

theorem Sfe.supprChange_eq (f : Sfe) (level active : Bool) : f.supprChange level active =
    if f.supprIn = true ∧ level ≠ f.supprLevel then
      { f with supprLevel := level, supprFilter := 0, latch := f.latch || decide (level = active) }
    else f := by
  unfold Sfe.supprChange
  simp only [Bool.and_eq_true, decide_eq_true_iff]

theorem exec_supprTransition {s : State} (h : s.pins.rstLow = false) (level : Bool) :
    exec (.supprTransition level) s = .next { s.takeEvent isSupprTransition with
      pins := { s.pins with suppr := level }, sfe := s.sfe.supprChange level s.ownRec.supprHigh } :=
  congrArg _ (State.unlessHeld_high (s := s.takeEvent isSupprTransition) h _)

theorem exec_ackTransition {s : State} (h : s.pins.rstLow = false) (level : Bool) :
    exec (.ackTransition level) s = .next
      (State.ackChange { s.takeEvent isAckTransition with pins := { s.pins with ack := level } } level) :=
  congrArg _ (State.unlessHeld_high (s := s.takeEvent isAckTransition) h _)

/-- R29: a recognised change of ACK in service. -/
theorem State.ackChange_taken {s : State} {level : Bool} (hin : s.sfe.ackIn = true) (hl : level ≠ s.sfe.ackLevel) :
    (s.ackChange level).sfe.ackLevel = level ∧
    (s.ackChange level).sfe.ackPending = (s.sfe.ackPending || decide (level = s.ownRec.ackRising)) ∧
    ((s.ackChange level).sfe.ackPending = true → s.sfe.ackPending = false →
      .ackEvaluation ∈ (s.ackChange level).raised) := by
  unfold State.ackChange
  rw [if_pos (by rw [hin, decide_eq_true hl]; rfl)]
  simp only
  split
  · next hedge =>
    rw [State.setAckPending_sfe, decide_eq_true hedge, Bool.or_true]
    refine ⟨rfl, rfl, fun _ hwas => ?_⟩
    unfold State.setAckPending
    rw [if_neg (show ¬(s.mapSfe fun f => { f with ackLevel := level, ackFilter := 0 }).sfe.ackPending = true from
      Bool.eq_false_iff.1 hwas)]
    exact List.mem_append_right _ (List.mem_singleton.2 rfl)
  · next hedge =>
    rw [decide_eq_false hedge, Bool.or_false]
    exact ⟨rfl, rfl, fun h hwas => absurd (hwas.symm.trans h) Bool.false_ne_true⟩

/-- R29: without a change, or out of service, ACK does nothing. -/
theorem State.ackChange_ignored {s : State} {level : Bool} (h : s.sfe.ackIn = false ∨ level = s.sfe.ackLevel) :
    s.ackChange level = s := by
  unfold State.ackChange
  refine if_neg ?_
  obtain h | h := h <;> simp [h]

/-- Settles O28: each line's transition by its own rule. -/
theorem linesRecognised : Obligations.LinesRecognised := by
  intro level s hrst
  let u : State := { s.takeEvent isAckTransition with pins := { s.pins with ack := level } }
  refine ⟨?_, ⟨_, exec_ackTransition hrst level, State.ackChange_frame _ level,
    fun hin hl => State.ackChange_taken (s := u) hin hl,
    fun h => (congrArg State.sfe (State.ackChange_ignored (s := u) h) : _ = u.sfe)⟩⟩
  rw [exec_supprTransition hrst, Sfe.supprChange_eq]
  exact ⟨_, rfl⟩

/-! #### CLEAR FAULTS (R188) -/

/-- R188: the fault register and the result after CLEAR FAULTS. -/
def State.clearedScs (s : State) : Scs := { s.scs with
  faults := s.scs.faults.cleared s.sfe.anemoSilent s.sfe.vaneErratic s.sfe.dustLamp s.prt.timeRail
  result := .done }

theorem exec_clearFaults {s : State} (h : s.portOpen = true) (hb : s.scs.busy = .clear)
    (hs : s.scs.station ≠ .programming) :
    exec .clearFaults s = .next (State.follow { s with scs := s.clearedScs }) := by
  change Host.Outcome.next s.takeClearFaults = _
  rw [State.takeClearFaults, State.command_taken h hb (decide_eq_true hs)]
  rfl

/-- QLC's following of the queue, all that it may change. -/
theorem State.follow_frame (s : State) : s.follow = { s with
    qlc := { s.qlc with
      holdoff := s.follow.qlc.holdoff, seqReg := s.follow.qlc.seqReg, drawn := s.follow.qlc.drawn }
    raised := s.follow.raised } := by
  have honly := s.follow_only
  unfold OnlyPosts at honly
  rw [s.follow_nq] at honly
  rw [← s.follow_qlc_frame]
  exact honly

theorem timeRail_iff (p : Prt) : p.timeRail = true ↔ p.trim = 64 ∨ p.trim = -64 := by
  unfold Prt.timeRail
  rw [decide_eq_true_iff]
  exact Int.natAbs_eq_iff

theorem State.clearedScs_eq (s : State) : s.clearedScs = { s.scs with
    result := .done
    faults :=
      { anemoSilent := s.scs.faults.anemoSilent && decide (s.sfe.silentRun = 2400)
        vaneErratic := s.scs.faults.vaneErratic && decide (8 ≤ s.sfe.vaneRecord.countP id)
        dustLamp := s.scs.faults.dustLamp && decide (s.sfe.lampLow = 20)
        lineTrouble := false
        duplicateStation := false
        timeRail := s.scs.faults.timeRail && decide (s.prt.trim = 64 ∨ s.prt.trim = -64)
        storeFault := false } } := by
  have hrail : s.prt.timeRail = decide (s.prt.trim = 64 ∨ s.prt.trim = -64) := by
    rw [Bool.eq_iff_iff, timeRail_iff, decide_eq_true_iff]
  unfold State.clearedScs Faults.cleared
  rw [hrail]
  rfl

theorem clearFaults_clears {s : State} (h : s.portOpen = true) (hb : s.scs.busy = .clear)
    (hs : s.scs.station ≠ .programming) : ∃ t, exec .clearFaults s = .next t ∧ t = { s with
      scs := s.clearedScs
      qlc := { s.qlc with holdoff := t.qlc.holdoff, seqReg := t.qlc.seqReg, drawn := t.qlc.drawn }
      raised := t.raised } :=
  ⟨_, exec_clearFaults h hb hs, State.follow_frame _⟩

/-! #### The fault events of a sample (R35–R37, R187, R189) -/

theorem Faults.get_set_of_get {f : Faults} {a b : FaultFlag} (h : f.get b = true) : (f.set a).get b = true := by
  by_cases hab : b = a
  · subst hab
    exact Faults.get_set f b
  · rw [Faults.get_set_other f hab, h]

theorem Faults.set_of_get {f : Faults} {a : FaultFlag} (h : f.get a = true) : f.set a = f := by
  cases a <;> cases f <;> simp_all [Faults.set, Faults.get]

theorem State.risingFault_scs (s : State) (before after : Bool) (f : FaultFlag) :
    (s.risingFault before after f).scs = if !before && after then { s.scs with
      faults := s.scs.faults.set f, quietEpoch := false
      healthArm := s.scs.healthArm && s.scs.faults.get f } else s.scs := by
  unfold State.risingFault
  split
  · exact s.faultEvent_scs f
  · rfl

/-- R189: the queue after a fault event that abandons no frame. -/
theorem State.faultEvent_nq (s : State) {f : FaultFlag} (hf : f ≠ .duplicateStation) :
    ∃ v, OnlyFaults s v ∧ v.nq = s.nq ∧ (s.faultEvent f).nq =
      if s.scs.faults.get f = false ∧ s.scs.healthArm = true then (v.post 4 .presence).nq else s.nq := by
  refine ⟨(s.mapScs fun c => { c with faults := c.faults.set f, quietEpoch := false }).mapScs fun c =>
    { c with healthArm := false }, rfl, rfl, ?_⟩
  unfold State.faultEvent
  simp only [if_neg hf]
  cases s.scs.faults.get f
  · simp only [Bool.false_eq_true, if_false, true_and]
    change (ite (s.scs.healthArm = true) _ _ : State).nq = _
    split
    · rfl
    · rfl
  · rfl

/-- What fault events that abandon no frame leave between `s` and `u`: a flag stays set, the arm stays set while
no flag is new, and one PRESENCE has been posted where a flag is new and the arm was set. -/
structure Faulted (s u : State) : Prop where
  only : OnlyFaults s u
  flags : ∀ g, s.scs.faults.get g = true → u.scs.faults.get g = true
  arm : u.scs.healthArm = true ↔ s.scs.healthArm = true ∧ u.scs.faults = s.scs.faults
  unposted : s.scs.healthArm = false ∨ u.scs.faults = s.scs.faults → u.nq = s.nq
  posted : s.scs.healthArm = true → u.scs.faults ≠ s.scs.faults →
    ∃ v, OnlyFaults s v ∧ v.nq = s.nq ∧ u.nq = (v.post 4 .presence).nq

theorem Faulted.refl {s u : State} (h : OnlyFaults s u) (hscs : u.scs = s.scs) (hnq : u.nq = s.nq) :
    Faulted s u where
  only := h
  flags g hg := hscs ▸ hg
  arm := by rw [hscs]; simp
  unposted _ := hnq
  posted _ hne := absurd (by rw [hscs]) hne

theorem Faulted.faultEvent {s u : State} (h : Faulted s u) {f : FaultFlag} (hf : f ≠ .duplicateStation) :
    Faulted s (u.faultEvent f) := by
  have hscs := u.faultEvent_scs f
  have hfaults : (u.faultEvent f).scs.faults = u.scs.faults.set f := by rw [hscs]
  have harm : (u.faultEvent f).scs.healthArm = (u.scs.healthArm && u.scs.faults.get f) := by rw [hscs]
  obtain ⟨v, hv, hvnq, hnq⟩ := u.faultEvent_nq hf
  have hflags : ∀ g, s.scs.faults.get g = true → (u.faultEvent f).scs.faults.get g = true := fun g hg => by
    rw [hfaults]
    exact Faults.get_set_of_get (h.flags g hg)
  have honly := h.only.trans (State.faultEvent_only u f)
  by_cases hset : u.scs.faults.get f = true
  · rw [if_neg (fun hn => Bool.false_ne_true (hn.1.symm.trans hset))] at hnq
    rw [Faults.set_of_get hset] at hfaults
    rw [hset, Bool.and_true] at harm
    exact ⟨honly, hflags, by rw [harm, hfaults]; exact h.arm, by rw [hfaults, hnq]; exact h.unposted,
      by rw [hfaults, hnq]; exact h.posted⟩
  · have hclear : u.scs.faults.get f = false := Bool.eq_false_iff.2 hset
    have hnew : (u.faultEvent f).scs.faults ≠ s.scs.faults := fun heq => by
      have hs : s.scs.faults.get f = true := by
        rw [← heq, hfaults, Faults.get_set]
      exact hset (h.flags f hs)
    rw [hclear, Bool.and_false] at harm
    refine ⟨honly, hflags, ?_, fun hno => ?_, fun harmed _ => ?_⟩
    · rw [harm]
      exact iff_of_false Bool.false_ne_true fun hn => hnew hn.2
    · obtain hno | heq := hno
      · rw [if_neg] at hnq
        · rw [hnq, h.unposted (.inl hno)]
        · exact fun hn => Bool.false_ne_true (hno.symm.trans (h.arm.1 hn.2).1)
      · exact absurd heq hnew
    · by_cases heq : u.scs.faults = s.scs.faults
      · rw [if_pos ⟨hclear, h.arm.2 ⟨harmed, heq⟩⟩] at hnq
        exact ⟨v, h.only.trans hv, hvnq.trans (h.unposted (.inr heq)), hnq⟩
      · rw [if_neg fun hn => heq (h.arm.1 hn.2).2] at hnq
        rw [hnq]
        exact h.posted harmed heq

theorem Faulted.risingFault {s u : State} (h : Faulted s u) (before after : Bool) {f : FaultFlag}
    (hf : f ≠ .duplicateStation) : Faulted s (u.risingFault before after f) := by
  unfold State.risingFault
  split
  · exact h.faultEvent hf
  · exact h

theorem State.sampleHeard_faulted (s : State) (vane : BitVec 4) (lamp : Bool) :
    Faulted (s.sampled vane lamp) (s.sampleHeard vane lamp) :=
  (((Faulted.refl (.refl _) rfl rfl).risingFault _ _ (f := .anemoSilent) nofun).risingFault _ _
    (f := .vaneErratic) nofun).risingFault _ _ (f := .dustLamp) nofun

/-- R187: the flags and the quiet-epoch mark after a sample, by the conditions that have become true. -/
theorem State.sampleHeard_flags (s : State) (vane : BitVec 4) (lamp : Bool) :
    let f := s.sampleSfe vane lamp
    let silent := !s.sfe.anemoSilent && f.anemoSilent
    let erratic := !s.sfe.vaneErratic && f.vaneErratic
    let dark := !s.sfe.dustLamp && f.dustLamp
    (s.sampleHeard vane lamp).scs.faults = { s.scs.faults with
      anemoSilent := s.scs.faults.anemoSilent || silent, vaneErratic := s.scs.faults.vaneErratic || erratic
      dustLamp := s.scs.faults.dustLamp || dark } ∧
    (s.sampleHeard vane lamp).scs.quietEpoch = (s.scs.quietEpoch && !silent && !erratic && !dark) := by
  unfold State.sampleHeard State.sampleFaults
  simp only [State.risingFault_scs]
  generalize (!s.sfe.anemoSilent && (s.sampleSfe vane lamp).anemoSilent) = silent
  generalize (!s.sfe.vaneErratic && (s.sampleSfe vane lamp).vaneErratic) = erratic
  generalize (!s.sfe.dustLamp && (s.sampleSfe vane lamp).dustLamp) = dark
  cases silent <;> cases erratic <;> cases dark <;> simp [State.sampled, Faults.set]

/-! #### The queue after a sample (R189) -/

/-- R146–R150: a post into a queue with room leaves the entries of other keys. -/
theorem State.post_keeps_other {s : State} (hq : QueueSound none s.qlc.inFlight s.nq)
    (hroom : s.nq.entries.length < Config.queueSize) {e : Entry} (he : e ∈ s.nq.entries) {n : Notice}
    (hk : e.key ≠ n.key) (cls : Nat) : e ∈ (s.post cls n).nq.entries := by
  by_cases hd : s.dropsPost n = true
  · rw [State.post_nq]
    unfold State.takePost
    rw [if_pos (show s.takeSerial.dropsPost (s.postEntry cls n).notice = true from hd)]
    exact he
  rw [Bool.not_eq_true] at hd
  cases hx : s.entryOf n.key with
  | none =>
    rw [State.post_new hd hx hroom]
    exact mem_insertEntry.2 (.inr he)
  | some x =>
    cases hf : x.inFlight with
    | false => exact ((post_folded hq hd hx hf).1 e hk).2 he
    | true =>
      rw [State.post_inFlight hd hx hf]
      exact he

/-- `t` has the queue of `s`, or that of one SIGHTING posted to it. -/
def OneSighting (s t : State) : Prop :=
  t.nq = s.nq ∨ ∃ u cls p, u.nq = s.nq ∧ u.qlc = s.qlc ∧ t.nq = (State.post u cls (.sighting p)).nq

theorem OneSighting.posted {s u : State} (hnq : u.nq = s.nq) (hqlc : u.qlc = s.qlc) (cls : Nat) (p : SightingNotice)
    {t : State} (ht : t.nq = (u.post cls (.sighting p)).nq) : OneSighting s t := .inr ⟨u, cls, p, hnq, hqlc, ht⟩

theorem State.admission_nq (s : State) (q : Request) (peer : Bool) : (s.admission q peer).2.nq = s.nq := by
  rw [s.admission_only q peer]

theorem State.admission_qlc (s : State) (q : Request) (peer : Bool) : (s.admission q peer).2.qlc = s.qlc := by
  rw [s.admission_only q peer]

theorem State.localJoin_posts (s : State) (e : Episode) (id : TrackId) : OneSighting s (s.localJoin e id) :=
  .posted (u := (s.admission (e.request s.scs.own id .join e.onset) false).2.setMode
    (.episode { e with track := some id, recorded := true })) (s.admission_nq _ _)
    (s.admission_qlc _ _) 3 _ rfl

theorem State.localNew_posts (s : State) (e : Episode) : OneSighting s (s.localNew e) := by
  unfold State.localNew
  split
  · exact .inl rfl
  · next v _ =>
    let q := e.request s.scs.own { origin := s.scs.own, seq := v } .new e.onset
    exact .posted (u := (s.admission q false).2.mapGdu _) (s.admission_nq q false) (s.admission_qlc q false) 1 _ rfl

theorem State.update_posts (s : State) (e : Episode) (u : Time) : OneSighting s (s.update e u) := by
  unfold State.update
  split
  · exact .inl rfl
  · split
    · exact .posted (State.admission_nq _ _ _) (State.admission_qlc _ _ _) 3 _ rfl
    · exact .inl rfl

/-- R49–R56: a SIGHTING notice is all that GDU's sample posts. -/
theorem State.gduSample_posts (s : State) (r : SampleRecord) : OneSighting s (s.gduSample r) := by
  unfold State.gduSample
  split
  · split
    · exact .inl rfl
    · exact .inl rfl
    · split
      · unfold State.onset
        simp only
        split
        · split
          · exact State.localJoin_posts (s.mapSfe fun f => { f with latch := false }) _ _
          · exact State.localNew_posts (s.mapSfe fun f => { f with latch := false }) _
        · exact .inl rfl
      · exact .inl rfl
    · unfold State.episodeSample
      generalize (if s.qualifies r then 0 else _ + 1) = quiet
      simp only
      split_ifs
      · exact .inl rfl
      · exact s.update_posts _ _
      · exact .inl rfl
  · exact .inl rfl

theorem QueueGood.sampleHeard {s : State} (h : QueueGood none s) (vane : BitVec 4) (lamp : Bool) :
    QueueGood none (s.sampleHeard vane lamp) :=
  QueueGood.risingFault (QueueGood.risingFault (QueueGood.risingFault (s := s.sampled vane lamp) h nofun _ _ _) nofun
    _ _ _) nofun _ _ _

/-- R189: a flag that a sample sets while the arm is set posts a PRESENCE of class 4. -/
theorem State.sample_posts_presence {s : State} (vane : BitVec 4) (lamp : Bool) (harm : s.scs.healthArm = true)
    (hnew : (s.sampleHeard vane lamp).scs.faults ≠ s.scs.faults) (hinv : QueueInv s)
    (hnone : s.entryOf .presence = none) (hroom : s.nq.entries.length < 7) :
    PostedAnew s (s.sample vane lamp) .presence 4 := by
  obtain ⟨v, hv, hvnq, hnq⟩ := (s.sampleHeard_faulted vane lamp).posted harm hnew
  change v.nq = s.nq at hvnq
  have hpost := State.post_new (s := v) (cls := 4) (n := .presence) (State.dropsPost_false fun _ => rfl)
    (by unfold State.entryOf; rw [hvnq]; exact hnone) (by rw [hvnq]; exact hroom.trans (by decide))
  rw [← hnq, hvnq] at hpost
  have hentries := congrArg Nq.entries hpost
  have hmem : v.postEntry 4 .presence ∈ (s.sampleHeard vane lamp).nq.entries := by
    rw [hentries]
    exact mem_insertEntry.2 (.inl rfl)
  have htime : v.prt.time = s.prt.time := congrArg Prt.time hv.prt
  refine ⟨v.postEntry 4 .presence, ?_, rfl, rfl, htime, rfl, rfl⟩
  obtain hsame | ⟨u, cls, p, hunq, huqlc, hposts⟩ :=
    (s.sampleHeard vane lamp).gduSample_posts (s.sampleHeard vane lamp).sampleRecord
  · rw [State.sample_heard, hsame]
    exact hmem
  · have hgood := (queueInv_iff.1 hinv).sampleHeard vane lamp
    rw [State.sample_heard, hposts]
    have hkey : (v.postEntry 4 .presence).key ≠ (Notice.sighting p).key :=
      show Key.presence ≠ Key.sighting p.id from nofun
    refine State.post_keeps_other ?_ ?_ (by rw [hunq]; exact hmem) hkey cls
    · rw [huqlc, hunq]
      exact hgood.1
    · rw [hunq, hentries]
      change (insertEntry _ _).length < _
      rw [insertEntry_length]
      exact Nat.succ_lt_succ hroom

theorem OnlyDetects.scs {s t : State} (h : OnlyDetects s t) : t.scs = s.scs := by rw [h]

theorem State.sample_scs (s : State) (vane : BitVec 4) (lamp : Bool) :
    (s.sample vane lamp).scs = (s.sampleHeard vane lamp).scs := (State.gduSample_only _ _).scs

/-- R35, R36, R30: the conditions that a sample finds, as its SFE shows them. -/
theorem State.sample_conditions (s : State) (vane : BitVec 4) (lamp : Bool) :
    ((!s.sfe.anemoSilent && (s.sampleSfe vane lamp).anemoSilent) = true ↔
      s.sfe.silentRun ≠ 2400 ∧ (s.sample vane lamp).sfe.silentRun = 2400) ∧
    ((!s.sfe.vaneErratic && (s.sampleSfe vane lamp).vaneErratic) = true ↔
      s.sfe.vaneRecord.countP id < 8 ∧ 8 ≤ (s.sample vane lamp).sfe.vaneRecord.countP id) ∧
    ((!s.sfe.dustLamp && (s.sampleSfe vane lamp).dustLamp) = true ↔
      s.sfe.lampLow ≠ 20 ∧ (s.sample vane lamp).sfe.lampLow = 20) := by
  rw [s.sample_sfe]
  unfold Sfe.anemoSilent Sfe.vaneErratic Sfe.largeChanges Sfe.dustLamp
  simp only [Bool.and_eq_true, Bool.not_eq_true', decide_eq_false_iff_not, decide_eq_true_iff]
  exact ⟨Iff.rfl, and_congr_left' Nat.not_le, Iff.rfl⟩

/-- R35: the silent run after a sample with ANEMO in service. -/
theorem State.sample_silentRun {s : State} (h : s.sfe.anemoIn = true) (vane : BitVec 4) (lamp : Bool) :
    (s.sample vane lamp).sfe.silentRun = match s.peerMedian with
      | some v => if s.sfe.anemoCount = 0 ∧ 40 ≤ v then min (s.sfe.silentRun + 1) 2400 else 0
      | none => 0 := by
  rw [(s.sample_runs vane lamp).2.1, if_pos h, congrArg Sfe.lastAnemo (Sfe.sampleAnemo_in h s.ownRec.speedFactor)]
  unfold silentAfter
  cases s.peerMedian with
  | none => rfl
  | some v => rfl

/-- R36: the record of large changes after a sample with VANE in service. -/
theorem State.sample_vaneRecord {s : State} (h : s.sfe.vaneIn = true) (vane : BitVec 4) (lamp : Bool) :
    (s.sample vane lamp).sfe.vaneRecord = newest 240 (s.sfe.vaneRecord ++ [match s.sfe.vanePrev with
      | some x => decide (3 ≤ sectorDistance (s.sample vane lamp).sfe.raw x)
      | none => false]) := by
  obtain ⟨hraw, -, -, -, hrecord⟩ := s.sample_vane vane lamp
  have hin := Sfe.sampleVane_in h (grayDecode vane)
  have hnew : (s.sfe.sampleVane (grayDecode vane)).vaneRecord =
      newest 240 (s.sfe.vaneRecord ++ [s.sfe.largeChange (grayDecode vane)]) := by simp only [hin]
  rw [hrecord, hraw, congrArg Sfe.raw hin, hnew]
  unfold Sfe.largeChange
  cases s.sfe.vanePrev with
  | none => rfl
  | some p => rfl

theorem quiet_iff {q a b c : Bool} : (q && !a && !b && !c) = true ↔ q = true ∧ ¬a = true ∧ ¬b = true ∧ ¬c = true := by
  simp [and_assoc]

/-- Settles O21: CLEAR FAULTS by its own rule; a sample by its fault events and GDU's one post. -/
theorem clearFaultsClears : Obligations.ClearFaultsClears := by
  refine ⟨fun s hport hbusy hst => ?_, fun vane lamp s hrst => ?_⟩
  · obtain ⟨t, ht, heq⟩ := clearFaults_clears hport hbusy hst
    rw [State.clearedScs_eq] at heq
    exact ⟨t, ht, heq⟩
  · let u := s.takeEvent isSampleEvent
    refine ⟨u.sample vane lamp, exec_sampleEvent hrst vane lamp, ?_⟩
    obtain ⟨hsilent, herratic, hdark⟩ := u.sample_conditions vane lamp
    obtain ⟨hflags, hquiet⟩ := u.sampleHeard_flags vane lamp
    have harm := (u.sampleHeard_faulted vane lamp).arm
    rw [← u.sample_scs] at hflags hquiet harm
    refine ⟨fun hin => State.sample_silentRun (s := u) hin vane lamp,
      fun hin => State.sample_vaneRecord (s := u) hin vane lamp, ?_, ?_, ?_, ?_, ?_, harm, fun harmed hnew => ?_⟩
    · rw [hflags]
      exact Bool.or_eq_true_iff.trans (or_congr_right hsilent)
    · rw [hflags]
      exact Bool.or_eq_true_iff.trans (or_congr_right herratic)
    · rw [hflags]
      exact Bool.or_eq_true_iff.trans (or_congr_right hdark)
    · rw [hflags]
      rfl
    · rw [hquiet, quiet_iff, hsilent, herratic, hdark]
      rfl
    · rw [u.sample_scs] at hnew
      exact State.sample_posts_presence (s := u) vane lamp harmed hnew

end Sys2Proof.Machine

/-! ### START validation (R11–R17, O17) -/

namespace Sys2Proof.Machine

/-! #### Checks in order (R11) -/

section
variable {α β : Type} {f : α → Option β}

theorem findSome_of_split {l r : List α} {x : α} {y : β} (hl : ∀ a ∈ l, f a = none) (hx : f x = some y) :
    (l ++ x :: r).findSome? f = some y := by
  rw [List.findSome?_append, List.findSome?_eq_none_iff.2 hl, List.findSome?_cons, hx]
  rfl

theorem findSome_range {g : Nat → Option β} {n i : Nat} {y : β} (hi : i < n) (hbefore : ∀ j, j < i → g j = none)
    (h : g i = some y) : (List.range n).findSome? g = some y := by
  have hsplit : List.range n = List.range i ++ i :: (List.range (n - i - 1)).map (i + 1 + ·) := by
    obtain ⟨k, rfl⟩ : ∃ k, n = i + 1 + k := ⟨n - i - 1, by omega⟩
    rw [show i + 1 + k - i - 1 = k by omega, List.range_add, List.range_succ, List.append_assoc]
    rfl
  rw [hsplit]
  exact findSome_of_split (fun j hj => hbefore j (List.mem_range.1 hj)) h

theorem findSome_range_none {g : Nat → Option β} {n : Nat} :
    (List.range n).findSome? g = none ↔ ∀ i, i < n → g i = none := by
  simp only [List.findSome?_eq_none_iff, List.mem_range]

end

theorem failsWhen_eq_none {bad : Bool} {code : SetupError} {table entry : Nat} :
    failsWhen bad code table entry = none ↔ bad = false := by
  cases bad <;> simp [failsWhen]

theorem failsWhen_true (code : SetupError) (table entry : Nat) :
    failsWhen true code table entry = some { code := code, table := table, entry := entry } := rfl

/-! #### The five stages of validation -/

section
variable {m : Memory} {own : Nat} {f : SetupFailure}

theorem validate_site (h : checkSite m = some f) : validate m own = some f := by
  unfold validate
  rw [h]

theorem validate_station (hsite : checkSite m = none) (h : (List.range 32).findSome? (checkStation m) = some f) :
    validate m own = some f := by
  unfold validate
  rw [hsite, h]

theorem validate_lane (hsite : checkSite m = none) (hst : (List.range 32).findSome? (checkStation m) = none)
    (h : (List.range (site m).laneCount).findSome? (checkLane m) = some f) : validate m own = some f := by
  unfold validate
  rw [hsite, hst, h]

theorem validate_zone (hsite : checkSite m = none) (hst : (List.range 32).findSome? (checkStation m) = none)
    (hl : (List.range (site m).laneCount).findSome? (checkLane m) = none)
    (h : (List.range (site m).zoneCount).findSome? (checkZone m) = some f) : validate m own = some f := by
  unfold validate
  rw [hsite, hst, hl, h]

theorem validate_own (hsite : checkSite m = none) (hst : (List.range 32).findSome? (checkStation m) = none)
    (hl : (List.range (site m).laneCount).findSome? (checkLane m) = none)
    (hz : (List.range (site m).zoneCount).findSome? (checkZone m) = none) : validate m own = checkOwn m own := by
  unfold validate
  rw [hsite, hst, hl, hz]

theorem validate_none (h : validate m own = none) :
    checkSite m = none ∧ (List.range 32).findSome? (checkStation m) = none ∧
    (List.range (site m).laneCount).findSome? (checkLane m) = none ∧
    (List.range (site m).zoneCount).findSome? (checkZone m) = none ∧ checkOwn m own = none := by
  have hstage : ∀ {o : Option SetupFailure}, (∀ f, o = some f → validate m own = some f) → o = none := fun hf =>
    Option.eq_none_iff_forall_ne_some.2 fun f ho => nomatch h.symm.trans (hf f ho)
  have hsite := hstage fun f => validate_site (f := f)
  have hst := hstage fun f => validate_station (f := f) hsite
  have hl := hstage fun f => validate_lane (f := f) hsite hst
  have hz := hstage fun f => validate_zone (f := f) hsite hst hl
  exact ⟨hsite, hst, hl, hz, (validate_own hsite hst hl hz).symm.trans h⟩

end

/-! #### Site record, stations and lanes (R12, R13) -/

section
variable {m : Memory}

theorem checkSite_none : checkSite m = none ↔ (site m).inRange = true := by
  unfold checkSite
  rw [failsWhen_eq_none, Bool.not_eq_false']

theorem stationPresent_succ {p : Nat} (hp : p < 32) : stationPresent m (p + 1) = (stationRec m (p + 1)).present := by
  unfold stationPresent
  rw [decide_eq_true ⟨Nat.le_add_left 1 p, hp⟩, Bool.true_and]

theorem checkStation_none {p : Nat} (hp : p < 32) :
    checkStation m p = none ↔ (stationPresent m (p + 1) = true → (stationRec m (p + 1)).inRange = true) := by
  rw [stationPresent_succ hp]
  unfold checkStation
  simp only
  rw [failsWhen_eq_none]
  cases (stationRec m (p + 1)).present <;> cases (stationRec m (p + 1)).inRange <;> decide

theorem stationPresent_range {n : Nat} (h : stationPresent m n = true) : 1 ≤ n ∧ n ≤ 32 :=
  of_decide_eq_true (Bool.and_eq_true_iff.1 h).1

theorem stations_none : (List.range 32).findSome? (checkStation m) = none ↔
    ∀ n, stationPresent m n = true → (stationRec m n).inRange = true := by
  rw [findSome_range_none]
  constructor
  · intro h n hn
    obtain ⟨h1, h32⟩ := stationPresent_range hn
    obtain ⟨p, rfl⟩ : ∃ p, n = p + 1 := ⟨n - 1, by omega⟩
    exact (checkStation_none (by omega)).1 (h p (by omega)) hn
  · exact fun h p hp => (checkStation_none hp).2 (h (p + 1))

theorem siteGood_iff : SiteGood m ↔ checkSite m = none ∧ (List.range 32).findSome? (checkStation m) = none := by
  rw [checkSite_none, stations_none]
  rfl

theorem laneEndpointBad_eq_false {l : LaneRec} : laneEndpointBad m l = false ↔
    stationPresent m l.source = true ∧ stationPresent m l.target = true ∧ l.source ≠ l.target ∧ l.mask ≠ 0 := by
  unfold laneEndpointBad
  simp only [Bool.or_eq_false_iff, Bool.not_eq_false', decide_eq_false_iff_not, and_assoc]

theorem checkLane_none {i : Nat} : checkLane m i = none ↔ LaneGood m i := by
  unfold checkLane firstFailure LaneGood
  simp only [List.findSome?_eq_none_iff, List.forall_mem_cons, id, failsWhen_eq_none, Bool.not_eq_false',
    laneEndpointBad_eq_false]
  exact ⟨fun ⟨h, k, _⟩ => ⟨h, k⟩, fun ⟨h, k⟩ => ⟨h, k, fun _ hx => nomatch hx⟩⟩

theorem checkLane_range {i : Nat} (h : (laneRec m i).inRange = false) :
    checkLane m i = some { code := .range, table := 2, entry := i } := by
  unfold checkLane firstFailure
  simp only [h]
  rfl

theorem checkLane_endpoint {i : Nat} (h : (laneRec m i).inRange = true) (hbad : ¬LaneGood m i) :
    checkLane m i = some { code := .laneEndpoint, table := 2, entry := i } := by
  have hends : laneEndpointBad m (laneRec m i) = true := by
    by_contra hends
    rw [Bool.not_eq_true, laneEndpointBad_eq_false] at hends
    exact hbad ⟨h, hends⟩
  unfold checkLane firstFailure
  simp only [h, hends]
  rfl

end

/-! #### Zones (R12, R14–R16) -/

/-- R12, R14–R16: the checks of zone `i` in order, with the code of each. -/
def zoneChecks (m : Memory) (i : Nat) : List (Bool × SetupError) :=
  let z := zoneRec m i
  [(zoneRangeBad m i, .range), (!stationPresent m z.owner, .ownerAbsent), (leadOrderBad z, .leadOrder),
    (z.kind.computes && decide (z.approachCount = 0), .approachMissing),
    (z.kind.computes && (approaches m i).any fun a => !stationPresent m a.source, .approachSource),
    (z.kind.mirrors && decide ((site m).zoneCount ≤ z.source), .mirrorLimit),
    (z.kind.mirrors && !(zoneRec m z.source).present, .mirrorAbsent),
    (z.kind.mirrors && decide (z.source = i ∨ (zoneRec m z.source).owner = z.owner), .mirrorSelf),
    (z.kind.mirrors && chainTooLong m 3 i, .mirrorDepth),
    (decide (4 ≤ (earlierOfOwner m i).length), .ownerLoad),
    ((earlierOfOwner m i).any fun k => decide ((zoneRec m k).pair = z.pair), .outputClash)]

theorem checkZone_present {m : Memory} {i : Nat} (h : (zoneRec m i).present = true) :
    checkZone m i = (zoneChecks m i).findSome? fun c => failsWhen c.1 c.2 3 i := by
  unfold checkZone firstFailure
  simp only
  rw [if_pos h]
  rfl

theorem checkZone_absent {m : Memory} {i : Nat} (h : (zoneRec m i).present = false) : checkZone m i = none :=
  if_neg (Bool.eq_false_iff.1 h)

theorem chainEnds_eq_false {m : Memory} {t : Nat} : chainEnds m t = false ↔ ChainGoesOn m t := by
  unfold chainEnds ChainGoesOn
  simp only [Bool.or_eq_false_iff, Bool.not_eq_false', decide_eq_false_iff_not, Nat.not_le, Nat.not_lt, and_assoc]

theorem chainTooLong_three {m : Memory} {i : Nat} : chainTooLong m 3 i = true ↔
    ChainGoesOn m (zoneRec m i).source ∧ ChainGoesOn m (zoneRec m (zoneRec m i).source).source ∧
    ChainGoesOn m (zoneRec m (zoneRec m (zoneRec m i).source).source).source := by
  simp only [chainTooLong, Bool.and_eq_true, Bool.not_eq_true', chainEnds_eq_false, and_true]

theorem zoneRangeBad_iff {m : Memory} {i : Nat} : zoneRangeBad m i = true ↔ (zoneRec m i).inRange = false ∨
    ((zoneRec m i).kind.computes = true ∧ ∃ a ∈ approaches m i, a.inRange = false) := by
  unfold zoneRangeBad
  simp only [Bool.or_eq_true, Bool.not_eq_true', Bool.and_eq_true, List.any_eq_true]

/-- The checks are those that the statement lists. -/
theorem zoneFaults_eq (m : Memory) (i : Nat) : zoneFaults m i = (zoneChecks m i).map fun c => (c.1 = true, c.2) := by
  unfold zoneFaults zoneChecks
  simp only [List.map_cons, List.map_nil, zoneRangeBad_iff, Bool.not_eq_true', leadOrderBad, decide_eq_true_iff,
    Bool.and_eq_true, List.any_eq_true, chainTooLong_three]
  rfl

theorem zoneGood_iff {m : Memory} {i : Nat} (h : (zoneRec m i).present = true) :
    checkZone m i = none ↔ ZoneGood m i := by
  unfold ZoneGood
  rw [checkZone_present h, zoneFaults_eq, List.findSome?_eq_none_iff, List.forall_mem_map]
  simp only [failsWhen_eq_none, Bool.not_eq_true]

theorem zones_none {m : Memory} : (List.range (site m).zoneCount).findSome? (checkZone m) = none ↔
    ∀ i, i < (site m).zoneCount → (zoneRec m i).present = true → ZoneGood m i := by
  rw [findSome_range_none]
  refine forall₂_congr fun i _ => ⟨fun h hp => (zoneGood_iff hp).1 h, fun h => ?_⟩
  cases hp : (zoneRec m i).present with
  | false => exact checkZone_absent hp
  | true => exact (zoneGood_iff hp).2 (h hp)

/-- R11: the first check of a zone that fails is the one reported. -/
theorem checkZone_fails {m : Memory} {i : Nat} (h : (zoneRec m i).present = true)
    {before after : List (Prop × SetupError)} {fails : Prop} {code : SetupError}
    (hsplit : zoneFaults m i = before ++ (fails, code) :: after) (hbefore : ∀ x ∈ before, ¬x.1) (hfails : fails) :
    checkZone m i = some { code := code, table := 3, entry := i } := by
  rw [zoneFaults_eq] at hsplit
  obtain ⟨l, r, hchecks, rfl, hr⟩ := List.map_eq_append_iff.1 hsplit
  obtain ⟨c, r', rfl, hc, -⟩ := List.map_eq_cons_iff.1 hr
  obtain ⟨rfl, rfl⟩ := Prod.mk.inj hc
  rw [checkZone_present h, hchecks]
  refine findSome_of_split (fun a ha => ?_) (by rw [hfails]; rfl)
  rw [failsWhen_eq_none, ← Bool.not_eq_true]
  exact hbefore _ (List.mem_map_of_mem ha)

/-! #### What tables that pass validation hold (R12–R17) -/

/-- R12, R14–R16: what a zone that passes holds. -/
structure ZonePassed (m : Memory) (i : Nat) : Prop where
  range : (zoneRec m i).inRange = true
  owner : stationPresent m (zoneRec m i).owner = true
  leads : (zoneRec m i).alarmLead ≤ (zoneRec m i).warnLead ∧ (zoneRec m i).warnLead ≤ (zoneRec m i).watchLead
  computes : (zoneRec m i).kind.computes = true → 1 ≤ (zoneRec m i).approachCount ∧
    ∀ a ∈ approaches m i, a.inRange = true ∧ stationPresent m a.source = true
  mirrors : (zoneRec m i).kind.mirrors = true → (zoneRec m i).source < (site m).zoneCount ∧
    (zoneRec m (zoneRec m i).source).present = true ∧ (zoneRec m i).source ≠ i ∧
    (zoneRec m (zoneRec m i).source).owner ≠ (zoneRec m i).owner ∧
    ¬(ChainGoesOn m (zoneRec m i).source ∧ ChainGoesOn m (zoneRec m (zoneRec m i).source).source ∧
      ChainGoesOn m (zoneRec m (zoneRec m (zoneRec m i).source).source).source)
  load : (zonesBefore m i).length < 4
  pairs : ∀ k ∈ zonesBefore m i, (zoneRec m k).pair ≠ (zoneRec m i).pair

theorem ZoneGood.passed {m : Memory} {i : Nat} (h : ZoneGood m i) : ZonePassed m i := by
  unfold ZoneGood zoneFaults at h
  simp only [List.forall_mem_cons, not_or, not_and, not_exists, not_lt, not_le, Bool.not_eq_false] at h
  obtain ⟨⟨hrange, happroach⟩, howner, hleads, hcount, hsource, hlimit, habsent, hself, hdepth, hload, hpairs, -⟩ := h
  exact {
    range := hrange
    owner := howner
    leads := hleads
    computes := fun hk => ⟨Nat.one_le_iff_ne_zero.2 (hcount hk), fun a ha => ⟨happroach hk a ha, hsource hk a ha⟩⟩
    mirrors := fun hk => ⟨hlimit hk, habsent hk, (hself hk).1, (hself hk).2, fun ⟨h1, h2, h3⟩ => hdepth hk h1 h2 h3⟩
    load := hload
    pairs := fun k hk he => hpairs k hk he }

theorem SiteGood.zoneCount {m : Memory} (h : SiteGood m) : (site m).zoneCount ≤ 48 := by
  have hr := h.1
  unfold Site.inRange at hr
  simp only [Bool.and_eq_true, decide_eq_true_iff] at hr
  omega

theorem ZoneRec.kind_cases {z : ZoneRec} (h : z.inRange = true) : z.kind = .computed ∨ z.kind.mirrors = true := by
  unfold ZoneRec.inRange at h
  simp only [Bool.and_eq_true, decide_eq_true_iff] at h
  cases hk : z.kind with
  | computed => exact .inl rfl
  | mirror => exact .inr rfl
  | combined => exact .inr rfl
  | invalid => simp [hk] at h

section
variable {m : Memory} (hcount : (site m).zoneCount ≤ 48)
  (hgood : ∀ i, i < (site m).zoneCount → (zoneRec m i).present = true → ZoneGood m i)
include hcount hgood

/-- R15: a present zone in force that is not COMPUTED hands the chain of mirror sources on to another. -/
theorem chain_goes_on {t : Nat} (ht : t < (site m).zoneCount) (hp : (zoneRec m t).present = true)
    (hk : (zoneRec m t).kind ≠ .computed) : ChainGoesOn m t ∧
    (zoneRec m t).source < (site m).zoneCount ∧ (zoneRec m (zoneRec m t).source).present = true := by
  have hpassed := (hgood t ht hp).passed
  have hmirrors := (ZoneRec.kind_cases hpassed.range).resolve_left hk
  obtain ⟨hlimit, hpresent, hself, -, -⟩ := hpassed.mirrors hmirrors
  refine ⟨⟨?_, hmirrors, hlimit, by omega, hself⟩, hlimit, hpresent⟩
  unfold zonePresent
  rw [hp, decide_eq_true (by omega : t < 48)]
  rfl

/-- R15: the chain of mirror sources reaches a COMPUTED zone within three links. -/
theorem chain_ends {i : Nat} (hi : i < (site m).zoneCount) (hp : (zoneRec m i).present = true)
    (hk : (zoneRec m i).kind.mirrors = true) :
    (zoneRec m (zoneRec m i).source).kind = .computed ∨
    (zoneRec m (zoneRec m (zoneRec m i).source).source).kind = .computed ∨
    (zoneRec m (zoneRec m (zoneRec m (zoneRec m i).source).source).source).kind = .computed := by
  obtain ⟨hlimit, hpresent, -, -, hdepth⟩ := (hgood i hi hp).passed.mirrors hk
  by_contra hnone
  obtain ⟨h1, h2, h3⟩ := not_or.1 hnone |>.imp_right not_or.1
  obtain ⟨hon1, hlimit1, hpresent1⟩ := chain_goes_on hcount hgood hlimit hpresent h1
  obtain ⟨hon2, hlimit2, hpresent2⟩ := chain_goes_on hcount hgood hlimit1 hpresent1 h2
  exact hdepth ⟨hon1, hon2, (chain_goes_on hcount hgood hlimit2 hpresent2 h3).1⟩

omit hcount hgood in
theorem mem_ownedZones {own i : Nat} : i ∈ ownedZones m own ↔
    i < 48 ∧ i < (site m).zoneCount ∧ (zoneRec m i).present = true ∧ (zoneRec m i).owner = own := by
  unfold ownedZones zoneDescribed zonePresent
  simp only [List.mem_filter, List.mem_range, Bool.and_eq_true, decide_eq_true_iff]
  tauto

omit hcount hgood in
theorem ownedZones_ascend (m : Memory) (own : Nat) : (ownedZones m own).Pairwise (· < ·) :=
  List.Pairwise.filter _ List.pairwise_lt_range

omit hcount hgood in
theorem mem_zonesBefore {i k : Nat} : k ∈ zonesBefore m i ↔
    k < i ∧ (zoneRec m k).present = true ∧ (zoneRec m k).owner = (zoneRec m i).owner := by
  unfold zonesBefore
  simp only [List.mem_filter, List.mem_range, Bool.and_eq_true, decide_eq_true_iff]

omit hcount in
/-- R16: an owner has at most four zones: of five the last would fail. -/
theorem ownedZones_load (own : Nat) : (ownedZones m own).length ≤ 4 := by
  by_contra hlong
  have hfour : 4 < (ownedZones m own).length := Nat.not_le.1 hlong
  have hascend := ownedZones_ascend m own
  obtain ⟨-, hi, hp, howner⟩ := mem_ownedZones.1 ((ownedZones m own).getElem_mem hfour)
  have hload := (hgood _ hi hp).passed.load
  have hnodup : ((ownedZones m own).take 4).Nodup :=
    (hascend.sublist (List.take_sublist _ _)).imp Nat.ne_of_lt
  have hsub : (ownedZones m own).take 4 ⊆ zonesBefore m (ownedZones m own)[4] := fun k hk => by
    obtain ⟨j, hj, rfl⟩ := List.mem_take_iff_getElem.1 hk
    obtain ⟨-, -, hkp, hkowner⟩ := mem_ownedZones.1 ((ownedZones m own).getElem_mem (n := j) (by omega))
    exact mem_zonesBefore.2 ⟨List.pairwise_iff_getElem.1 hascend _ _ _ _ (by omega), hkp, hkowner.trans howner.symm⟩
  have hlen := (hnodup.subperm hsub).length_le
  rw [List.length_take, Nat.min_eq_left hfour.le] at hlen
  omega

omit hcount in
/-- R16: the zones of an owner have distinct output pairs. -/
theorem ownedZones_pairs (own : Nat) : ((ownedZones m own).map fun i => (zoneRec m i).pair).Nodup := by
  refine List.pairwise_map.2 ((ownedZones_ascend m own).imp_of_mem fun {k i} hk hi hlt => ?_)
  obtain ⟨-, -, hkp, hkowner⟩ := mem_ownedZones.1 hk
  obtain ⟨-, hin, hp, howner⟩ := mem_ownedZones.1 hi
  exact (hgood i hin hp).passed.pairs k (mem_zonesBefore.2 ⟨hlt, hkp, hkowner.trans howner.symm⟩)

end

theorem checkOwn_absent {m : Memory} {own : Nat} (h : stationPresent m own = false) :
    checkOwn m own = some { code := .ownAbsent, table := 1, entry := own - 1 } := by
  unfold checkOwn
  rw [h]
  rfl

theorem checkOwn_none {m : Memory} {own : Nat} : checkOwn m own = none ↔ stationPresent m own = true := by
  unfold checkOwn
  rw [failsWhen_eq_none, Bool.not_eq_false']

/-- Settles O17: the stages of validation in order; what passes them all, stage by stage. -/
theorem validTables : Obligations.ValidTables := by
  intro m own
  refine ⟨fun h => ?_, fun hsite p hp hbefore hpresent hbad => ?_, fun n hn habsent => ?_, fun hgood i hi hbefore => ?_,
    fun hgood hlanes i hi hpresent hbefore before fails code after hsplit hno hfails => ?_,
    fun hgood hlanes hzones hown => ?_, fun hvalid => ?_⟩
  · refine validate_site ?_
    unfold checkSite
    rw [h]
    rfl
  · refine validate_station (checkSite_none.2 hsite) (findSome_range hp (fun q hq => ?_) ?_)
    · exact (checkStation_none (hq.trans hp)).2 (hbefore q hq)
    · rw [stationPresent_succ hp] at hpresent
      unfold checkStation
      simp only
      rw [hpresent, hbad]
      rfl
  · obtain ⟨hsite, hst, hl, hz, -⟩ := validate_none hn
    rw [validate_own hsite hst hl hz, checkOwn_absent habsent]
  · obtain ⟨hsite, hst⟩ := siteGood_iff.1 hgood
    have hfails := fun f (hf : checkLane m i = some f) => validate_lane (own := own) hsite hst
      (findSome_range hi (fun j hj => checkLane_none.2 (hbefore j hj)) hf)
    exact ⟨fun h => hfails _ (checkLane_range h), fun h hbad => hfails _ (checkLane_endpoint h hbad)⟩
  · obtain ⟨hsite, hst⟩ := siteGood_iff.1 hgood
    refine validate_zone hsite hst (findSome_range_none.2 fun j hj => checkLane_none.2 (hlanes j hj))
      (findSome_range hi (fun j hj => ?_) (checkZone_fails hpresent hsplit hno hfails))
    cases hp : (zoneRec m j).present with
    | false => exact checkZone_absent hp
    | true => exact (zoneGood_iff hp).2 (hbefore j hj hp)
  · obtain ⟨hsite, hst⟩ := siteGood_iff.1 hgood
    rw [validate_own hsite hst (findSome_range_none.2 fun j hj => checkLane_none.2 (hlanes j hj)) (zones_none.2 hzones)]
    exact checkOwn_none.2 hown
  · obtain ⟨hsite, hst, hl, hz, hown⟩ := validate_none hvalid
    have hgood : SiteGood m := siteGood_iff.2 ⟨hsite, hst⟩
    have hzones := zones_none.1 hz
    refine ⟨hgood.1, checkOwn_none.1 hown, hgood.2, fun i hi => checkLane_none.1 (findSome_range_none.1 hl i hi),
      fun i hi hp => ?_, fun owner => ⟨ownedZones_load hzones owner, ownedZones_pairs hzones owner⟩, fun i hi hp hk => ?_⟩
    · have hpassed := (hzones i hi hp).passed
      exact ⟨hpassed.range, hpassed.owner, hpassed.leads.1, hpassed.leads.2, hpassed.computes⟩
    · obtain ⟨hlimit, hpresent, -, howner, -⟩ := (hzones i hi hp).passed.mirrors hk
      exact ⟨hlimit, hpresent, howner, chain_ends hgood.zoneCount hzones hi hp hk⟩

end Sys2Proof.Machine

/-! ### Views and the values of the indices (R173, R178, R191, R195, R196, O24) -/

namespace Sys2Proof.Machine

/-! #### What a code selects (R195) -/

theorem selectedBy_roster {n : Nat} (h1 : 1 ≤ n) (h32 : n ≤ 0x20) : selectedBy n = .roster n := if_pos ⟨h1, h32⟩

theorem selectedBy_zone {i : Nat} (h : i < 48) : selectedBy (0x40 + i) = .zone i := by
  unfold selectedBy
  rw [if_neg (by omega), if_pos (by omega), Nat.add_sub_cancel_left]

theorem selectedBy_slot {k : Nat} (h : k < 16) : selectedBy (0x80 + k) = .slot k := by
  unfold selectedBy
  rw [if_neg (by omega), if_neg (by omega), if_pos (by omega), Nat.add_sub_cancel_left]

theorem channelOf_none {k : Nat} (h : 5 < k) : channelOf k = none := by
  unfold channelOf
  split <;> first | omega | rfl

theorem selectedBy_nothing {n : Nat} (h : n = 0 ∨ (0x20 < n ∧ n < 0x40) ∨ (0x70 ≤ n ∧ n < 0x80) ∨
    (0x90 ≤ n ∧ n < 0xC0) ∨ 0xC5 < n) : selectedBy n = .nothing := by
  unfold selectedBy
  rw [if_neg (by omega), if_neg (by omega), if_neg (by omega)]
  split
  · rw [channelOf_none (by omega)]
  · rfl

/-! #### The copies (R121, R173) -/

section
variable {s : State}

theorem State.viewOf_own {n : Nat} (h1 : 1 ≤ n) (h32 : n ≤ 0x20) (hown : n = s.scs.own) :
    s.viewOf n = .copy (ownTimeView s.prt) := by
  unfold State.viewOf State.stationView
  rw [selectedBy_roster h1 h32]
  simp only
  rw [if_pos hown]

theorem State.viewOf_peer {n : Nat} (h1 : 1 ≤ n) (h32 : n ≤ 0x20) (hown : n ≠ s.scs.own) {e : RosterEntry}
    (he : s.rosterOf n = some e) : s.viewOf n = .copy (rosterView e) := by
  unfold State.viewOf State.stationView
  rw [selectedBy_roster h1 h32]
  simp only
  rw [if_neg hown, he]

theorem State.viewOf_zone {i : Nat} (h : i < 48) : s.viewOf (0x40 + i) = .copy (s.zoneView i) := by
  unfold State.viewOf
  rw [selectedBy_zone h]

theorem State.viewOf_slot {k : Nat} (h : k < 16) : s.viewOf (0x80 + k) = .copy (slotView s.tracks k) := by
  unfold State.viewOf
  rw [selectedBy_slot h]

theorem State.zoneView_owned {i : Nat} {z : ZoneState}
    (h : s.zev.zones.find? (fun z => decide (z.zone = i)) = some z) :
    s.zoneView i = ownedView (zoneRec s.tables i).kindCode z := by
  unfold State.zoneView
  rw [h]

theorem State.zoneView_source {i : Nat} (h : ∀ z ∈ s.zev.zones, z.zone ≠ i) {r : Received}
    (hr : s.receivedOf i = some r) : s.zoneView i = sourceView r := by
  have hnone : s.zev.zones.find? (fun z => decide (z.zone = i)) = none :=
    List.find?_eq_none.2 fun z hz hi => h z hz (of_decide_eq_true hi)
  unfold State.zoneView
  rw [hnone, hr]

theorem State.zoneView_nothing {i : Nat} (h : ∀ z ∈ s.zev.zones, z.zone ≠ i) (hr : s.receivedOf i = none) :
    s.zoneView i = [0] := by
  have hnone : s.zev.zones.find? (fun z => decide (z.zone = i)) = none :=
    List.find?_eq_none.2 fun z hz hi => h z hz (of_decide_eq_true hi)
  unfold State.zoneView
  rw [hnone, hr]

/-! #### VIEW SELECT and VIEW DATA -/

theorem State.writesOpen_true (hb : s.scs.busy ≠ .programming) : s.writesOpen = true := decide_eq_true hb

theorem State.writesOpen_false (hb : s.scs.busy = .programming) : s.writesOpen = false :=
  decide_eq_false fun h => h hb

theorem State.viewSelect_taken (h : s.portOpen = true) (hb : s.scs.busy ≠ .programming) (code : Byte) :
    s.viewSelect code = { s with scs := { s.scs with view := s.viewOf code.toNat, viewOff := 0 } } := by
  unfold State.viewSelect
  rw [State.throughPort_open h]
  exact if_pos (State.writesOpen_true hb)

theorem State.viewSelect_barred (h : s.portOpen = true) (hb : s.scs.busy = .programming) (code : Byte) :
    s.viewSelect code = s := by
  unfold State.viewSelect
  rw [State.throughPort_open h]
  exact if_neg (Bool.eq_false_iff.1 (State.writesOpen_false hb))

theorem State.viewRead_byte (h : s.portOpen = true) (hb : s.scs.busy ≠ .programming) {b : Byte}
    (hbyte : s.viewBytes[s.scs.viewOff]? = some b) :
    s.viewRead = { s with scs := { s.scs with viewOff := s.scs.viewOff + 1, sdout := some b } } := by
  unfold State.viewRead
  rw [State.throughPort_open h]
  simp only
  rw [if_pos (State.writesOpen_true hb), hbyte]
  rfl

/-- R191, log 28: past the last byte, and during PROGRAMMING, 0 is read and nothing advances. -/
theorem State.viewRead_zero (h : s.portOpen = true)
    (hz : s.scs.busy = .programming ∨ s.viewBytes.length ≤ s.scs.viewOff) :
    s.viewRead = { s with scs := { s.scs with sdout := some 0 } } := by
  unfold State.viewRead
  rw [State.throughPort_open h]
  simp only
  by_cases hb : s.scs.busy = .programming
  · rw [if_neg (Bool.eq_false_iff.1 (State.writesOpen_false hb))]
    rfl
  · rw [if_pos (State.writesOpen_true hb), List.getElem?_eq_none (hz.resolve_left hb)]
    rfl

end

/-- R195, R121, R173: what a write to VIEW SELECT copies, by its code. -/
theorem viewSelect_selects {s : State} (h : s.portOpen = true) (hb : s.scs.busy ≠ .programming) (code : Byte) :
    ∃ t, exec (.viewSelect code) s = .next t ∧
      t = { s with scs := { s.scs with view := t.scs.view, viewOff := 0 } } ∧
      t.scs.view = s.viewOf code.toNat :=
  ⟨s.viewSelect code, rfl, by rw [State.viewSelect_taken h hb], by rw [State.viewSelect_taken h hb]⟩

/-! #### The lengths of the views (R196) -/

theorem bytes4_length (t : BitVec 32) : (bytes4 t).length = 4 := rfl

theorem timeBytes_length (t : Option Time) : (timeBytes t).length = 4 := rfl

theorem flatMap_length_of_const {α β : Type} {f : α → List β} {n : Nat} (h : ∀ a, (f a).length = n) (l : List α) :
    (l.flatMap f).length = n * l.length := by
  rw [List.length_flatMap, List.map_congr_left (g := fun _ => n) fun a _ => h a, List.map_const', List.sum_replicate,
    smul_eq_mul, Nat.mul_comm]

theorem announcedBytes_length (a : Announced) : (announcedBytes a).length = 9 + 2 * a.pairs.length := by
  have hpairs := flatMap_length_of_const (f := pairBytes) (n := 2) (fun _ => rfl) a.pairs
  unfold announcedBytes
  rw [List.length_append, hpairs]
  rfl

theorem trackView_length (t : Track) : (trackView t).length = 27 + 11 * t.sightings.length := by
  have hsightings := flatMap_length_of_const (f := sightingView) (n := 11) (fun _ => rfl) t.sightings
  unfold trackView
  rw [List.length_append, hsightings]
  rfl

theorem rosterView_length (e : RosterEntry) : (rosterView e).length =
    19 + 2 * (match e.announced with | some a => a.pairs.length | none => 0) := by
  unfold rosterView
  rw [List.length_append]
  cases e.announced with
  | none => rfl
  | some a =>
    simp only [announcedBytes_length]
    change 10 + _ = _
    omega

/-! #### The values of the indices (R178, R195) -/

theorem toNat_byteOf {n : Nat} (h : n < 256) : (byteOf n).toNat = n := by
  unfold byteOf
  rw [BitVec.toNat_ofNat]
  exact Nat.mod_eq_of_lt h

/-- R195: STATUS by its fields; log 37: bits 7 and 6 are 0. -/
theorem Scs.statusByte_toNat (c : Scs) : c.statusByte.toNat = c.station.code + (if c.busy = .clear then 0 else 8) +
    (if c.station = .window then 16 else 0) + (if c.setupError = .noError then 0 else 32) := by
  have hbusy : bitOf (decide (c.busy ≠ .clear)) 3 = if c.busy = .clear then 0 else 8 := by
    unfold bitOf
    by_cases h : c.busy = .clear <;> simp [h]
  have hwindow : bitOf (decide (c.station = .window)) 4 = if c.station = .window then 16 else 0 := by
    unfold bitOf
    simp
  have herror : bitOf (decide (c.setupError ≠ .noError)) 5 = if c.setupError = .noError then 0 else 32 := by
    unfold bitOf
    by_cases h : c.setupError = .noError <;> simp [h]
  have hcode : c.station.code ≤ 5 := by cases c.station <;> decide
  unfold Scs.statusByte
  rw [hbusy, hwindow, herror]
  refine toNat_byteOf ?_
  split_ifs <;> omega

/-- R195: FAULTS by its flags. -/
theorem Faults.byte_toNat (f : Faults) : (f.bits.setWidth 8 : Byte).toNat =
    (if f.anemoSilent then 1 else 0) + (if f.vaneErratic then 2 else 0) + (if f.dustLamp then 4 else 0) +
    (if f.lineTrouble then 8 else 0) + (if f.duplicateStation then 16 else 0) + (if f.timeRail then 32 else 0) +
    (if f.storeFault then 64 else 0) := by
  have hbit : ∀ b k, bitOf b k ≤ 2 ^ k := fun b k => by cases b <;> simp [bitOf]
  have h0 := hbit f.anemoSilent 0
  have h1 := hbit f.vaneErratic 1
  have h2 := hbit f.dustLamp 2
  have h3 := hbit f.lineTrouble 3
  have h4 := hbit f.duplicateStation 4
  have h5 := hbit f.timeRail 5
  have h6 := hbit f.storeFault 6
  unfold Faults.bits
  rw [BitVec.toNat_setWidth, BitVec.toNat_ofNat, Nat.mod_eq_of_lt (a := _ % _), Nat.mod_eq_of_lt]
  · rfl
  · omega
  · exact (Nat.mod_lt _ (by decide)).trans (by decide)

section
variable {s : State}

theorem State.portRead_closed (h : s.portOpen = false) (i : Nat) : s.portRead i = none := by
  unfold State.portRead
  rw [h]
  rfl

theorem State.portRead_open (h : s.portOpen = true) (hb : s.scs.busy ≠ .programming) (i : Nat) :
    s.portRead i = some (s.indexValue i) := by
  unfold State.portRead
  rw [if_pos h, State.writesOpen_true hb]
  rfl

theorem State.portRead_shown (h : s.portOpen = true) {i : Nat} (hi : i = 0x01 ∨ i = 0x04) :
    s.portRead i = some (s.indexValue i) := by
  unfold State.portRead
  rw [if_pos h, decide_eq_true hi, Bool.or_true]
  rfl

theorem State.portRead_barred (h : s.portOpen = true) (hb : s.scs.busy = .programming) {i : Nat} (h1 : i ≠ 0x01)
    (h4 : i ≠ 0x04) : s.portRead i = some 0 := by
  unfold State.portRead
  rw [if_pos h, State.writesOpen_false hb, if_neg (by simp [h1, h4])]

theorem State.indexValue_unused {i : Nat}
    (h : i ∉ [1, 2, 4, 5, 6, 7, 0x0A, 0x0B, 0x0C, 0x0D, 0x0E, 0x0F, 0x11, 0x12]) : s.indexValue i = 0 := by
  unfold State.indexValue
  split <;> first | rfl | exact absurd (by decide) h

end

/-- R178, R195: what every index reads while the port is open. -/
theorem portRead_values {s : State} (h : s.portOpen = true) :
    (∃ b, s.portRead 0x01 = some b ∧ b.toNat = s.scs.station.code + (if s.scs.busy = .clear then 0 else 8) +
      (if s.scs.station = .window then 16 else 0) + (if s.scs.setupError = .noError then 0 else 32)) ∧
    s.portRead 0x04 = some (if s.scs.busy = .clear then s.scs.result.code else 3) :=
  ⟨⟨_, State.portRead_shown h (.inl rfl), Scs.statusByte_toNat _⟩, State.portRead_shown h (.inr rfl)⟩

/-- Settles O24: VIEW SELECT by what its code selects, VIEW DATA by the offset, the lengths, the indices. -/
theorem viewRead : Obligations.ViewRead := by
  refine ⟨fun code s hport => ⟨fun hb => ?_, fun hb => ?_, fun hb => ?_⟩, fun s => ?_, fun p kind z r t e => ?_,
    fun s => ⟨fun hport i => State.portRead_closed hport i, fun hport => ?_⟩⟩
  · obtain ⟨t, ht, heq, hview⟩ := viewSelect_selects hport hb code
    refine ⟨t, ht, heq, fun h1 h32 => ⟨fun hown => ?_, fun hown e he => ?_⟩, fun i hcode hi => ⟨fun z hz => ?_,
      fun hz => ⟨fun r hr => ?_, fun hr => ?_⟩⟩, fun k hcode hk => ⟨fun hs => ?_, fun tr hs => ?_⟩,
      fun c k hck => ?_, fun hnothing => ?_⟩
    · rw [hview, State.viewOf_own h1 h32 hown]
    · rw [hview, State.viewOf_peer h1 h32 hown he]
    · rw [hview, hcode, State.viewOf_zone hi, State.zoneView_owned hz]
    · rw [hview, hcode, State.viewOf_zone hi, State.zoneView_source hz hr]
    · rw [hview, hcode, State.viewOf_zone hi, State.zoneView_nothing hz hr]
    · rw [hview, hcode, State.viewOf_slot hk]
      unfold slotView
      rw [hs]
    · rw [hview, hcode, State.viewOf_slot hk]
      unfold slotView
      rw [hs]
    · rw [hview, State.viewOf_eq_channel]
      simp only [List.mem_cons, Prod.mk.injEq, List.not_mem_nil, or_false] at hck
      obtain ⟨rfl, rfl⟩ | ⟨rfl, rfl⟩ | ⟨rfl, rfl⟩ | ⟨rfl, rfl⟩ | ⟨rfl, rfl⟩ | ⟨rfl, rfl⟩ := hck <;> exact Iff.rfl
    · rw [hview]
      unfold State.viewOf
      rw [selectedBy_nothing hnothing]
  · exact ⟨congrArg _ (State.viewSelect_barred hport hb code), congrArg _ (State.viewRead_zero hport (.inl hb))⟩
  · exact ⟨fun b hbyte => congrArg _ (State.viewRead_byte hport hb hbyte),
      fun hlen => congrArg _ (State.viewRead_zero hport (.inr hlen))⟩
  · refine ⟨fun hv => ?_, fun l hv => ?_, fun c hv => ?_, rfl, rfl, rfl, rfl, rfl, rfl⟩
    · unfold State.viewBytes
      rw [hv]
    · unfold State.viewBytes
      rw [hv]
    · unfold State.viewBytes
      rw [hv]
  · exact ⟨rfl, rfl, rfl, trackView_length t, rosterView_length e⟩
  · obtain ⟨hstatus, hresult⟩ := portRead_values hport
    refine ⟨hstatus, hresult, fun hb i h1 h4 => State.portRead_barred hport hb h1 h4, fun hb => ?_⟩
    have hread := State.portRead_open hport hb
    exact ⟨⟨_, hread 0x02, Faults.byte_toNat _⟩, hread 0x05, hread 0x06, hread 0x07, hread 0x0A, hread 0x0B,
      hread 0x0C, hread 0x0D, hread 0x0E, hread 0x0F, hread 0x11, hread 0x12,
      fun i hi => (hread i).trans (congrArg some (State.indexValue_unused hi))⟩

end Sys2Proof.Machine

/-! ### Association (R46–R48, O30) -/

namespace Sys2Proof.Machine

/-! #### The least of the fits (R47, R48) -/

theorem foldl_leastOf_some (l : List (Option Nat)) (a : Nat) : ∃ d, l.foldl leastOf (some a) = some d ∧ d ≤ a ∧
    (d = a ∨ some d ∈ l) ∧ ∀ x, some x ∈ l → d ≤ x := by
  induction l generalizing a with
  | nil => exact ⟨a, rfl, le_rfl, .inl rfl, nofun⟩
  | cons b l ih =>
    cases b with
    | none =>
      obtain ⟨d, hd, hle, hfrom, hall⟩ := ih a
      refine ⟨d, hd, hle, hfrom.imp_right (List.mem_cons_of_mem _), fun x hx => hall x ?_⟩
      exact (List.mem_cons.1 hx).resolve_left nofun
    | some c =>
      obtain ⟨d, hd, hle, hfrom, hall⟩ := ih (min a c)
      refine ⟨d, hd, hle.trans (Nat.min_le_left _ _), ?_, fun x hx => ?_⟩
      · obtain rfl | hmem := hfrom
        · exact (Nat.le_total a c).imp Nat.min_eq_left fun h => by rw [Nat.min_eq_right h]; exact List.mem_cons_self
        · exact .inr (List.mem_cons_of_mem _ hmem)
      · obtain heq | hmem := List.mem_cons.1 hx
        · rw [Option.some.inj heq]
          exact hle.trans (Nat.min_le_right _ _)
        · exact hall x hmem

theorem foldl_leastOf (l : List (Option Nat)) : (l.foldl leastOf none = none ∧ ∀ x, some x ∉ l) ∨
    ∃ d, l.foldl leastOf none = some d ∧ some d ∈ l ∧ ∀ x, some x ∈ l → d ≤ x := by
  induction l with
  | nil => exact .inl ⟨rfl, nofun⟩
  | cons b l ih =>
    cases b with
    | none =>
      have hmem : ∀ x : Nat, some x ∈ none :: l ↔ some x ∈ l := fun x =>
        List.mem_cons.trans (or_iff_right nofun)
      simp only [hmem]
      exact ih
    | some c =>
      obtain ⟨d, hd, hle, hfrom, hall⟩ := foldl_leastOf_some l c
      refine .inr ⟨d, hd, hfrom.elim (fun h => h ▸ List.mem_cons_self) (List.mem_cons_of_mem _), fun x hx => ?_⟩
      obtain heq | hmem := List.mem_cons.1 hx
      · rw [Option.some.inj heq]
        exact hle
      · exact hall x hmem

theorem idLower_cases (a b : TrackId) : idLower a b = true ∨ a = b ∨ idLower b a = true := by
  unfold idLower
  cases a
  cases b
  simp only [decide_eq_true_iff, TrackId.mk.injEq]
  omega

theorem idLower_trans {a b c : TrackId} (h : idLower a b = true) (k : idLower b c = true) : idLower a c = true := by
  unfold idLower at *
  rw [decide_eq_true_iff] at *
  omega

/-- R48: `x` is not after `y` among the fits: the lesser deviation, between equal ones the lower id. -/
def FitsBefore (x y : TrackId × Nat) : Prop :=
  x.2 < y.2 ∨ (x.2 = y.2 ∧ (y.1 = x.1 ∨ idLower x.1 y.1 = true))

theorem FitsBefore.refl (x : TrackId × Nat) : FitsBefore x x := .inr ⟨rfl, .inl rfl⟩

theorem FitsBefore.trans {x y z : TrackId × Nat} (h : FitsBefore x y) (k : FitsBefore y z) : FitsBefore x z := by
  obtain h | ⟨he, hid⟩ := h
  · exact .inl (k.elim h.trans fun k => k.1 ▸ h)
  · obtain k | ⟨ke, kid⟩ := k
    · exact .inl (he ▸ k)
    · refine .inr ⟨he.trans ke, ?_⟩
      obtain hid | hid := hid
      · exact hid ▸ kid
      · obtain kid | kid := kid
        · exact .inr (kid ▸ hid)
        · exact .inr (idLower_trans hid kid)

theorem bestFit_cons (x : TrackId × Nat) (xs : List (TrackId × Nat)) : bestFit (x :: xs) =
    match bestFit xs with
    | none => some x
    | some y => if y.2 < x.2 ∨ (y.2 = x.2 ∧ idLower y.1 x.1 = true) then some y else some x := rfl

theorem bestFit_eq_none {l : List (TrackId × Nat)} : bestFit l = none ↔ l = [] := by
  cases l with
  | nil => simp [bestFit]
  | cons x xs =>
    rw [bestFit_cons]
    refine iff_of_false ?_ (List.cons_ne_nil _ _)
    split
    · exact nofun
    · split <;> exact nofun

/-- R48: the best fit stands before every other. -/
theorem bestFit_before {l : List (TrackId × Nat)} {y : TrackId × Nat} (h : bestFit l = some y) :
    ∀ x ∈ l, FitsBefore y x := by
  induction l generalizing y with
  | nil => exact nofun
  | cons x xs ih =>
    rw [bestFit_cons] at h
    cases hb : bestFit xs with
    | none =>
      rw [hb] at h
      obtain rfl := Option.some.inj h
      obtain rfl := bestFit_eq_none.1 hb
      exact fun z hz => List.mem_singleton.1 hz ▸ .refl _
    | some w =>
      rw [hb] at h
      simp only at h
      split at h
      · next hlt =>
        obtain rfl := Option.some.inj h
        exact List.forall_mem_cons.2 ⟨hlt.imp_right fun ⟨he, hid⟩ => ⟨he, .inr hid⟩, ih hb⟩
      · next hge =>
        obtain rfl := Option.some.inj h
        have hx : FitsBefore x w := by
          rw [not_or, not_and] at hge
          obtain hlt | he := (Nat.not_lt.1 hge.1).lt_or_eq
          · exact .inl hlt
          · exact .inr ⟨he, (idLower_cases w.1 x.1).resolve_left (hge.2 he.symm)⟩
        exact List.forall_mem_cons.2 ⟨.refl x, fun z hz => hx.trans (ih hb z hz)⟩

/-! #### The deviation of a track (R47) -/

theorem trackDeviation_cases (m : Memory) (own : Nat) (t : Track) (onset : Time) :
    (trackDeviation m own t onset = none ∧ ∀ x ∈ t.sightings, ∀ d,
      fitDeviation m own t.sector t.peakSpeed x onset ≠ some d) ∨
    ∃ d, trackDeviation m own t onset = some d ∧
      (∃ x ∈ t.sightings, fitDeviation m own t.sector t.peakSpeed x onset = some d) ∧
      ∀ x ∈ t.sightings, ∀ d', fitDeviation m own t.sector t.peakSpeed x onset = some d' → d ≤ d' := by
  obtain ⟨hnone, hno⟩ | ⟨d, hd, hmem, hle⟩ :=
    foldl_leastOf (t.sightings.map fun x => fitDeviation m own t.sector t.peakSpeed x onset)
  · exact .inl ⟨hnone, fun x hx d hd => hno d (List.mem_map.2 ⟨x, hx, hd⟩)⟩
  · exact .inr ⟨d, hd, List.mem_map.1 hmem, fun x hx d' hd' => hle d' (List.mem_map.2 ⟨x, hx, hd'⟩)⟩

theorem trackDeviation_eq_some {m : Memory} {own : Nat} {t : Track} {onset : Time} {d : Nat} :
    trackDeviation m own t onset = some d ↔
      (∃ x ∈ t.sightings, fitDeviation m own t.sector t.peakSpeed x onset = some d) ∧
      ∀ x ∈ t.sightings, ∀ d', fitDeviation m own t.sector t.peakSpeed x onset = some d' → d ≤ d' := by
  obtain ⟨hnone, hno⟩ | ⟨d', hd', ⟨y, hy, hfit⟩, hle⟩ := trackDeviation_cases m own t onset
  · rw [hnone]
    exact iff_of_false nofun fun ⟨⟨x, hx, hd⟩, _⟩ => hno x hx d hd
  · rw [hd']
    constructor
    · rintro ⟨⟩
      exact ⟨⟨y, hy, hfit⟩, hle⟩
    · rintro ⟨⟨x, hx, hd⟩, hall⟩
      exact congrArg some (Nat.le_antisymm (hle x hx d hd) (hall y hy d' hfit))

theorem sightingOf_eq_none {l : List Sighting} {n : Nat} : sightingOf l n = none ↔ ∀ x ∈ l, x.station ≠ n := by
  unfold sightingOf
  simp only [List.find?_eq_none, decide_eq_true_iff]

theorem sectorNear_iff {a b : Nat} (ha : a ≤ 15) (hb : b ≤ 15) :
    sectorNear a b = true ↔ a = b ∨ a = (b + 1) % 16 ∨ b = (a + 1) % 16 := by
  unfold sectorNear
  simp only [decide_eq_true_iff]
  omega

/-- R46: the candidates for association. -/
theorem Track.candidate_iff {t : Track} {own sector : Nat} (ht : t.sector ≤ 15) (hs : sector ≤ 15) :
    t.candidate own sector = true ↔
      (t.sector = sector ∨ t.sector = (sector + 1) % 16 ∨ sector = (t.sector + 1) % 16) ∧
      ∀ x ∈ t.sightings, x.station ≠ own := by
  unfold Track.candidate
  rw [Bool.and_eq_true, sectorNear_iff ht hs, Option.isNone_iff_eq_none, sightingOf_eq_none]

/-! #### The lane of a sighting (R6, R47) -/

theorem laneCarries_iff {l : LaneRec} {source target sector : Nat} :
    (decide (l.source = source ∧ l.target = target) && hasSector l.mask sector) = true ↔
      LaneCarries l source target sector := by
  unfold LaneCarries hasSector
  rw [Bool.and_eq_true, decide_eq_true_iff, and_assoc]

section
variable {m : Memory} {source target sector : Nat}

theorem firstLane_none (h : ∀ i, i < min (site m).laneCount 192 → ¬LaneCarries (laneRec m i) source target sector) :
    firstLane m source target sector = none := by
  unfold firstLane lanesInForce
  refine List.find?_eq_none.2 fun l hl => ?_
  obtain ⟨i, hi, rfl⟩ := List.mem_map.1 hl
  rw [laneCarries_iff]
  exact h i (List.mem_range.1 hi)

theorem find_range_map {α : Type} {p : α → Bool} {f : Nat → α} {n i : Nat} (hi : i < n) (hp : p (f i) = true)
    (hbefore : ∀ j, j < i → p (f j) = false) : ((List.range n).map f).find? p = some (f i) := by
  refine List.find?_eq_some_iff_append.2 ⟨hp, (List.range i).map f,
    ((List.range (n - i - 1)).map (i + 1 + ·)).map f, ?_, fun a ha => ?_⟩
  · obtain ⟨k, rfl⟩ : ∃ k, n = i + 1 + k := ⟨n - i - 1, by omega⟩
    rw [show i + 1 + k - i - 1 = k by omega, List.range_add, List.range_succ]
    simp
  · obtain ⟨j, hj, rfl⟩ := List.mem_map.1 ha
    rw [hbefore j (List.mem_range.1 hj)]
    rfl

theorem firstLane_some {i : Nat} (hi : i < min (site m).laneCount 192)
    (hc : LaneCarries (laneRec m i) source target sector)
    (hbefore : ∀ j, j < i → ¬LaneCarries (laneRec m j) source target sector) :
    firstLane m source target sector = some (laneRec m i) :=
  find_range_map hi (laneCarries_iff.2 hc) fun j hj =>
    Bool.eq_false_iff.2 fun h => hbefore j hj (laneCarries_iff.1 h)

end

/-- R47: the deviation by the lane found. -/
theorem fitDeviation_follows {m : Memory} {own sector speed : Nat} {x : Sighting} {onset : Time} {l : LaneRec}
    (h : firstLane m x.station own sector = some l) :
    FitFollows m l speed x.time onset (fitDeviation m own sector speed x onset) := by
  unfold fitDeviation FitFollows
  rw [h]
  refine ⟨fun ⟨he, hle⟩ => if_pos ?_, fun hno => if_neg ?_⟩
  · rw [he]
    exact decide_eq_true hle
  · rw [Bool.and_eq_true, Bool.not_eq_true', decide_eq_true_iff]
    rintro ⟨he, hle⟩
    exact hno.elim (fun hlate => Bool.false_ne_true (he.symm.trans hlate)) fun hgt => absurd hle (Nat.not_le.2 hgt)

/-! #### The track that an onset joins (R48) -/

/-- R46–R48: the fits of an onset. -/
theorem mem_fits {s : State} {sector : Nat} {onset : Time} {c : TrackId × Nat} :
    c ∈ ((liveTracks s.tracks).filter fun t => t.candidate s.scs.own sector).filterMap (fun t =>
      (trackDeviation s.tables s.scs.own t onset).map fun d => (t.id, d)) ↔
    ∃ t ∈ liveTracks s.tracks, t.candidate s.scs.own sector = true ∧ t.id = c.1 ∧
      trackDeviation s.tables s.scs.own t onset = some c.2 := by
  simp only [List.mem_filterMap, List.mem_filter, Option.map_eq_some_iff]
  constructor
  · rintro ⟨t, ⟨ht, hc⟩, d, hd, rfl⟩
    exact ⟨t, ht, hc, rfl, hd⟩
  · rintro ⟨t, ht, hc, hid, hd⟩
    exact ⟨t, ⟨ht, hc⟩, c.2, hd, Prod.ext hid rfl⟩

/-- Settles O30: the best fit among the fits, the deviation of a track, the lane of a sighting. -/
theorem associationLeast : Obligations.AssociationLeast := by
  intro s sector onset
  refine ⟨fun id hid => ?_, ?_, fun t => ⟨fun ht hs => Track.candidate_iff ht hs, fun d => trackDeviation_eq_some,
    fun x => ⟨fun h => ?_, fun i hi hc hbefore => fitDeviation_follows (firstLane_some hi hc hbefore)⟩⟩⟩
  · obtain ⟨c, hbest, rfl⟩ := Option.map_eq_some_iff.1 hid
    obtain ⟨t, ht, hc, htid, hd⟩ := mem_fits.1 (mem_of_bestFit hbest)
    exact ⟨t, ht, c.2, htid, hc, hd, fun u hu d' huc hud =>
      bestFit_before hbest (u.id, d') (mem_fits.2 ⟨u, hu, huc, rfl, hud⟩)⟩
  · unfold State.associate
    simp only
    rw [Option.map_eq_none_iff, bestFit_eq_none, List.eq_nil_iff_forall_not_mem]
    constructor
    · exact fun h u hu hc => Option.eq_none_iff_forall_ne_some.2 fun d hd => h (u.id, d) (mem_fits.2 ⟨u, hu, hc, rfl, hd⟩)
    · rintro h c hmem
      obtain ⟨t, ht, hc, -, hd⟩ := mem_fits.1 hmem
      exact nomatch (h t ht hc).symm.trans hd
  · unfold fitDeviation
    rw [firstLane_none h]

end Sys2Proof.Machine

/-! ### Frames read back (R192, R193, O31, O32) -/

namespace Sys2Proof.Machine

/-! #### Bytes of lists -/

theorem byteAt_append_left {l : List Byte} {i : Nat} (h : i < l.length) (r : List Byte) :
    byteAt (l ++ r) i = byteAt l i := by
  unfold byteAt
  rw [List.getD_append _ _ _ _ h]

theorem byteAt_append_right (l r : List Byte) (i : Nat) : byteAt (l ++ r) (l.length + i) = byteAt r i := by
  unfold byteAt
  rw [List.getD_append_right _ _ _ _ (Nat.le_add_right _ _), Nat.add_sub_cancel_left]

theorem pairAt_append_left {l : List Byte} {i : Nat} (h : i + 1 < l.length) (r : List Byte) :
    pairAt (l ++ r) i = pairAt l i := by
  unfold pairAt
  rw [byteAt_append_left (Nat.lt_of_succ_lt h), byteAt_append_left h]

theorem timeAt_append_left {l : List Byte} {i : Nat} (h : i + 3 < l.length) (r : List Byte) :
    timeAt (l ++ r) i = timeAt l i := by
  unfold timeAt
  rw [pairAt_append_left (by omega), pairAt_append_left h]

theorem byteOf_toNat (n : Nat) : (byteOf n).toNat = n % 256 := BitVec.toNat_ofNat _ _

theorem pair_of_bytes2 {n : Nat} (h : n < 65536) : (byteOf (n / 256)).toNat * 256 + (byteOf n).toNat = n := by
  rw [byteOf_toNat, byteOf_toNat]
  omega

theorem time_of_bytes4 (t : Time) : BitVec.ofNat 32
    (((byteOf (t.toNat / 16777216)).toNat * 256 + (byteOf (t.toNat / 65536)).toNat) * 65536 +
      ((byteOf (t.toNat / 256)).toNat * 256 + (byteOf t.toNat).toNat)) = t := by
  have ht := t.isLt
  simp only [byteOf_toNat]
  rw [show (t.toNat / 16777216 % 256 * 256 + t.toNat / 65536 % 256) * 65536 +
    (t.toNat / 256 % 256 * 256 + t.toNat % 256) = t.toNat by omega]
  rw [BitVec.ofNat_toNat, BitVec.setWidth_eq]

/-! #### The whole frame (R123, R136) -/

/-- R192: the header of a frame. -/
def frameHeader (kind : FrameKind) (length sender : Nat) (stamp : Time) : List Byte :=
  [kind.code, byteOf length, byteOf sender] ++ bytes4 stamp

/-- R193: header and payload of a frame: what its CRC covers. -/
def frameBody (kind : FrameKind) (sender : Nat) (stamp : Time) (payload : List Byte) : List Byte :=
  frameHeader kind (payload.length + 7) sender stamp ++ payload

theorem frameBytes_eq (kind : FrameKind) (sender : Nat) (stamp : Time) (payload : List Byte) :
    frameBytes kind sender stamp payload =
      frameBody kind sender stamp payload ++ bytes2 (crc16 (frameBody kind sender stamp payload)).toNat := rfl

section
variable {kind : FrameKind} {sender : Nat} {stamp : Time} {payload : List Byte}

theorem frameBody_length : (frameBody kind sender stamp payload).length = payload.length + 7 := by
  unfold frameBody
  rw [List.length_append, Nat.add_comm]
  rfl

theorem frameBytes_length : (frameBytes kind sender stamp payload).length = payload.length + 9 := by
  rw [frameBytes_eq, List.length_append, frameBody_length]
  rfl

/-- A byte of a frame's payload. -/
theorem frameBytes_byte {i : Nat} (h : i < payload.length) :
    byteAt (frameBytes kind sender stamp payload) (i + 7) = byteAt payload i := by
  have hlen : i + 7 < (frameBody kind sender stamp payload).length := by
    rw [frameBody_length]
    omega
  rw [frameBytes_eq, byteAt_append_left hlen]
  rfl

theorem frameBytes_pair {i : Nat} (h : i + 1 < payload.length) :
    pairAt (frameBytes kind sender stamp payload) (i + 7) = pairAt payload i := by
  unfold pairAt
  rw [show i + 7 + 1 = i + 1 + 7 by omega, frameBytes_byte (Nat.lt_of_succ_lt h), frameBytes_byte h]

theorem frameBytes_time {i : Nat} (h : i + 3 < payload.length) :
    timeAt (frameBytes kind sender stamp payload) (i + 7) = timeAt payload i := by
  unfold timeAt
  rw [show i + 7 + 2 = i + 2 + 7 by omega, frameBytes_pair (by omega), frameBytes_pair h]

theorem frameBytes_kind : byteAt (frameBytes kind sender stamp payload) 0 = kind.code.toNat := rfl

theorem frameKind_code : frameKind kind.code.toNat = some kind := by cases kind <;> rfl

theorem frameBytes_sender (h : sender ≤ 32) : byteAt (frameBytes kind sender stamp payload) 2 = sender := by
  change (byteOf sender).toNat = sender
  exact toNat_byteOf (by omega)

theorem frameBytes_stamp : timeAt (frameBytes kind sender stamp payload) 3 = stamp := time_of_bytes4 stamp

theorem frameBytes_lengthByte (h : payload.length < 249) :
    byteAt (frameBytes kind sender stamp payload) 1 = payload.length + 7 := by
  change (byteOf (payload.length + 7)).toNat = _
  exact toNat_byteOf (by omega)

/-- R136, R193: a frame as it is sent passes check 1. -/
theorem frameBytes_checkOk (h : payload.length < 249) :
    checkOk (frameBytes kind sender stamp payload) = true := by
  have hlen := frameBytes_lengthByte (kind := kind) (sender := sender) (stamp := stamp) h
  unfold checkOk
  simp only [hlen]
  have htake : (frameBytes kind sender stamp payload).take (payload.length + 7) =
      frameBody kind sender stamp payload := by
    rw [frameBytes_eq]
    exact List.take_left' frameBody_length
  have hcrc : pairAt (frameBytes kind sender stamp payload) (payload.length + 7) =
      (crc16 (frameBody kind sender stamp payload)).toNat := by
    rw [frameBytes_eq, ← frameBody_length (kind := kind) (sender := sender) (stamp := stamp) (payload := payload)]
    unfold pairAt
    rw [byteAt_append_right _ _ 1]
    have h0 := byteAt_append_right (frameBody kind sender stamp payload)
      (bytes2 (crc16 (frameBody kind sender stamp payload)).toNat) 0
    rw [Nat.add_zero] at h0
    rw [h0]
    exact pair_of_bytes2 (crc16 _).isLt
  rw [htake, hcrc, frameBytes_length, BitVec.ofNat_toNat, BitVec.setWidth_eq]
  simp only [decide_true, Bool.and_true, decide_eq_true_iff]
  omega

end

/-! #### SIGHTING (R192, R138) -/

/-- R192: the mark byte of a SIGHTING. -/
def sightingMarks (form : Form) (w trusted dust : Bool) : Nat := form.code + bitOf w 4 + bitOf trusted 5 + bitOf dust 6

theorem sightingMarks_read (form : Form) (w trusted dust : Bool) :
    sightingMarks form w trusted dust < 256 ∧ formOf (sightingMarks form w trusted dust % 4) = some form ∧
    markAt (sightingMarks form w trusted dust) 4 = w ∧ markAt (sightingMarks form w trusted dust) 5 = trusted ∧
    markAt (sightingMarks form w trusted dust) 6 = dust := by
  cases form <;> revert w trusted dust <;> decide

/-- R192: the bytes of a SIGHTING in range, as they are read. -/
theorem sightingBytes_read {sender : Nat} {p : SightingNotice} (h : SightingInRange sender p) :
    let b := sightingBytes p
    byteAt b 0 = p.id.origin ∧ byteAt b 1 = p.id.seq ∧
    byteAt b 2 = sightingMarks p.form p.w p.trusted p.dust.isSome ∧ timeAt b 3 = p.time ∧
    byteAt b 7 = p.sector ∧ pairAt b 8 = p.speed ∧ pairAt b 10 = carried p.dust ∧ byteAt b 12 = p.updates := by
  obtain ⟨-, horigin, hseq, -, hsector, hspeed, hdust, hupdates⟩ := h
  have hcarried : carried p.dust < 65536 := by
    unfold carried absentCode
    cases hd : p.dust with
    | none => decide
    | some d => exact (hdust d hd).trans_lt (by decide)
  exact ⟨toNat_byteOf (by omega), toNat_byteOf (by omega), toNat_byteOf (sightingMarks_read _ _ _ _).1,
    time_of_bytes4 _, toNat_byteOf (by omega), pair_of_bytes2 (by omega), pair_of_bytes2 hcarried,
    toNat_byteOf (by omega)⟩

theorem readSighting_frame {sender : Nat} {stamp : Time} {p : SightingNotice} (hs : sender ≤ 32)
    (h : SightingInRange sender p) : readSighting (frameBytes .sighting sender stamp (sightingBytes p)) = some p := by
  obtain ⟨h0, h1, h2, h3, h7, h8, h10, h12⟩ := sightingBytes_read h
  obtain ⟨horigin1, horigin, hseq, hnew, hsector, hspeed, hdust, hupdates⟩ := h
  have hlen : (sightingBytes p).length = 13 := rfl
  have hbyte : ∀ i, i < 13 → byteAt (frameBytes .sighting sender stamp (sightingBytes p)) (i + 7) =
    byteAt (sightingBytes p) i := fun i hi => frameBytes_byte (hlen ▸ hi)
  have hpair : ∀ i, i + 1 < 13 → pairAt (frameBytes .sighting sender stamp (sightingBytes p)) (i + 7) =
    pairAt (sightingBytes p) i := fun i hi => frameBytes_pair (hlen ▸ hi)
  have htime := frameBytes_time (kind := .sighting) (sender := sender) (stamp := stamp) (payload := sightingBytes p)
    (i := 3) (by rw [hlen]; decide)
  obtain ⟨-, hform, hw, ht, hd⟩ := sightingMarks_read p.form p.w p.trusted p.dust.isSome
  have hmark : byteAt (frameBytes .sighting sender stamp (sightingBytes p)) 9 =
      sightingMarks p.form p.w p.trusted p.dust.isSome := (hbyte 2 (by decide)).trans h2
  unfold readSighting
  rw [hmark, hform]
  simp only
  rw [hw, ht, hd, (hbyte 0 (by decide)).trans h0, (hbyte 1 (by decide)).trans h1, (hbyte 7 (by decide)).trans h7,
    (hpair 8 (by decide)).trans h8, (hpair 10 (by decide)).trans h10, (hbyte 12 (by decide)).trans h12,
    htime.trans h3, frameBytes_sender hs]
  have hown : (decide (p.form ≠ .new) || decide (p.id.origin = sender)) = true := by
    by_cases hf : p.form = .new
    · rw [decide_eq_true (hnew hf), Bool.or_true]
    · rw [decide_eq_true hf, Bool.true_or]
  have hrange : (if p.dust.isSome = true then decide (carried p.dust ≤ 1023)
      else decide (carried p.dust = absentCode)) = true := by
    cases hc : p.dust with
    | none => rfl
    | some d => exact decide_eq_true (hdust d hc)
  have hvalue : (if p.dust.isSome = true then some (carried p.dust) else none) = p.dust := by
    cases p.dust <;> rfl
  rw [hown, hrange, hvalue, decide_eq_true ⟨horigin1, horigin⟩, decide_eq_true hsector, decide_eq_true hspeed,
    decide_eq_true hupdates]
  rfl

/-- Settles O31: the frame as it is sent passes the checks, and its payload reads back. -/
theorem sightingFrameReads : Obligations.SightingFrameReads := by
  intro sender stamp p _ hs h
  have hlen : (sightingBytes p).length < 249 := show 13 < 249 by decide
  have hlengthByte : byteAt (frameBytes .sighting sender stamp (sightingBytes p)) 1 = 20 := frameBytes_lengthByte hlen
  refine ⟨frameBytes_checkOk hlen, frameKind_code (kind := .sighting), ?_, frameBytes_length, frameBytes_sender hs, frameBytes_stamp,
    readSighting_frame hs h⟩
  unfold formOk
  simp only [hlengthByte]
  rfl

/-! #### PRESENCE (R192, R138) -/

theorem Level.ofNat_toNat (l : Level) : Level.ofNat? l.toNat = some l := by cases l <;> rfl

theorem Level.toNat_le (l : Level) : l.toNat ≤ 3 := by cases l <;> decide

/-- R192: a level with its lost mark, as a byte and as it is read. -/
theorem levelMark_read (l : Level) (lost : Bool) : l.toNat + bitOf lost 7 < 256 ∧
    Level.ofNat? ((l.toNat + bitOf lost 7) % 128) = some l ∧ markAt (l.toNat + bitOf lost 7) 7 = lost := by
  cases l <;> cases lost <;> decide

/-- R192: a zone list reads back. -/
theorem readPairs_flatMap (pre post : List Byte) {ps : List ZonePair} (h : ∀ p ∈ ps, p.zone ≤ 255) :
    readPairs (pre ++ (ps.flatMap pairBytes ++ post)) ps.length pre.length = some ps := by
  induction ps generalizing pre with
  | nil => rfl
  | cons p ps ih =>
    obtain ⟨hp, hps⟩ := List.forall_mem_cons.1 h
    obtain ⟨hlt, hlevel, hlost⟩ := levelMark_read p.level p.lostMark
    have hlist : pre ++ ((p :: ps).flatMap pairBytes ++ post) =
        (pre ++ pairBytes p) ++ (ps.flatMap pairBytes ++ post) := by
      rw [List.flatMap_cons, List.append_assoc, List.append_assoc]
    have hzone := byteAt_append_right pre ((p :: ps).flatMap pairBytes ++ post) 0
    have hmark := byteAt_append_right pre ((p :: ps).flatMap pairBytes ++ post) 1
    change _ = (byteOf p.zone).toNat at hzone
    change _ = (byteOf (p.level.toNat + bitOf p.lostMark 7)).toNat at hmark
    rw [toNat_byteOf (by omega)] at hzone
    rw [toNat_byteOf hlt] at hmark
    have hrest := ih (pre ++ pairBytes p) hps
    rw [← hlist, List.length_append] at hrest
    change readPairs _ ps.length (pre.length + 2) = _ at hrest
    rw [List.length_cons]
    unfold readPairs
    rw [hmark, hlevel, hrest]
    simp only [hlost]
    rw [Nat.add_zero] at hzone
    rw [hzone]

/-- R192: the mark of the lock state. -/
theorem lockMark_read (l : Lock) (trusted : Bool) : l.code + bitOf trusted 2 < 256 ∧
    lockOf ((l.code + bitOf trusted 2) % 4) = some l ∧ markAt (l.code + bitOf trusted 2) 2 = trusted := by
  cases l <;> cases trusted <;> decide

theorem signed8_ofInt {x : Int} (h : -64 ≤ x ∧ x ≤ 64) : signed8 (BitVec.ofInt 8 x).toNat = x := by
  unfold signed8
  rw [BitVec.ofNat_toNat, BitVec.setWidth_eq, BitVec.toInt_ofInt]
  exact Int.bmod_eq_of_le (by omega) (by omega)

/-- R192: the bytes of a PRESENCE before its zone list. -/
def announcedHead (a : Announced) : List Byte :=
  [if a.operating then 5 else 4, lockByte a.lock a.trusted] ++ bytes2 a.checksum.toNat
  ++ [BitVec.ofInt 8 a.trim, a.faults.setWidth 8] ++ bytes2 (carried a.s60) ++ [byteOf a.pairs.length]

theorem announcedBytes_eq (a : Announced) : announcedBytes a = announcedHead a ++ a.pairs.flatMap pairBytes := rfl

/-- R192: the bytes of a PRESENCE in range, as they are read. -/
theorem announcedHead_read {a : Announced} (h : AnnouncedInRange a) :
    let b := announcedHead a
    byteAt b 0 = (if a.operating then 5 else 4) ∧ byteAt b 1 = a.lock.code + bitOf a.trusted 2 ∧
    pairAt b 2 = a.checksum.toNat ∧ signed8 (byteAt b 4) = a.trim ∧ byteAt b 5 = a.faults.toNat ∧
    pairAt b 6 = carried a.s60 ∧ byteAt b 8 = a.pairs.length := by
  obtain ⟨htrim, htrim', hs60, hpairs, -⟩ := h
  have hcarried : carried a.s60 < 65536 := by
    unfold carried absentCode
    cases hv : a.s60 with
    | none => decide
    | some v => exact (hs60 v hv).trans_lt (by decide)
  refine ⟨?_, toNat_byteOf (lockMark_read _ _).1, pair_of_bytes2 a.checksum.isLt, signed8_ofInt ⟨htrim, htrim'⟩, ?_,
    pair_of_bytes2 hcarried, toNat_byteOf (by omega)⟩
  · change (if a.operating = true then (5 : Byte) else 4).toNat = _
    split
    · rfl
    · rfl
  · change (a.faults.setWidth 8 : Byte).toNat = _
    exact BitVec.toNat_setWidth_of_le (by decide)

theorem readPresence_frame {sender : Nat} {stamp : Time} {a : Announced} (h : AnnouncedInRange a) :
    readPresence (frameBytes .presence sender stamp (announcedBytes a)) = some a := by
  obtain ⟨h0, h1, h2, h4, h5, h6, h8⟩ := announcedHead_read h
  obtain ⟨htrim, htrim', hs60, hlen, hzones⟩ := h
  generalize hf : frameBytes .presence sender stamp (announcedBytes a) = f
  have hsplit : f = (frameHeader .presence ((announcedBytes a).length + 7) sender stamp ++ announcedHead a) ++
      (a.pairs.flatMap pairBytes ++ bytes2 (crc16 (frameBody .presence sender stamp (announcedBytes a))).toNat) := by
    rw [← hf, frameBytes_eq]
    unfold frameBody
    rw [announcedBytes_eq, List.append_assoc, List.append_assoc, List.append_assoc]
  have hbyte : ∀ i, i < 9 → byteAt f (i + 7) = byteAt (announcedHead a) i := fun i hi => by
    rw [hsplit, List.append_assoc]
    exact byteAt_append_left (l := announcedHead a) hi _
  have hpair : ∀ i, i + 1 < 9 → pairAt f (i + 7) = pairAt (announcedHead a) i := fun i hi => by
    unfold pairAt
    rw [show i + 7 + 1 = i + 1 + 7 by omega, hbyte i (by omega), hbyte (i + 1) hi]
  have hpairs : readPairs f a.pairs.length 16 = some a.pairs := by
    rw [hsplit]
    exact readPairs_flatMap _ _ hzones
  obtain ⟨-, hlock, htrusted⟩ := lockMark_read a.lock a.trusted
  unfold readPresence
  rw [(hbyte 1 (by decide)).trans h1, (hbyte 8 (by decide)).trans h8, hlock, hpairs]
  simp only
  rw [htrusted, (hbyte 0 (by decide)).trans h0, (hpair 2 (by decide)).trans h2, hbyte 4 (by decide), h4,
    (hbyte 5 (by decide)).trans h5, (hpair 6 (by decide)).trans h6, BitVec.ofNat_toNat, BitVec.ofNat_toNat]
  have hop : ((if a.operating = true then 5 else 4) = 4 ∨ (if a.operating = true then 5 else 4) = 5) := by
    split
    · exact .inr rfl
    · exact .inl rfl
  have hrange : carried a.s60 ≤ 600 ∨ carried a.s60 = absentCode := by
    cases hv : a.s60 with
    | none => exact .inr rfl
    | some v => exact .inl (hs60 v hv)
  have hvalue : (if carried a.s60 = absentCode then none else some (carried a.s60)) = a.s60 := by
    cases hv : a.s60 with
    | none => rfl
    | some v =>
      refine if_neg fun he : v = 65535 => ?_
      have := hs60 v hv
      omega
  have hoperating : decide ((if a.operating = true then 5 else 4) = 5) = a.operating := by
    cases a.operating <;> rfl
  rw [if_pos, hvalue, hoperating, BitVec.setWidth_eq, BitVec.setWidth_eq]
  rw [decide_eq_true hop, decide_eq_true ⟨htrim, htrim'⟩, decide_eq_true hrange]
  rfl

/-- Settles O32: as for a SIGHTING, the zone list by induction over its pairs. -/
theorem presenceFrameReads : Obligations.PresenceFrameReads := by
  intro sender stamp a _ hs h
  have hpayload := announcedBytes_length a
  have hk := h.2.2.2.1
  have hlen : (announcedBytes a).length < 249 := by omega
  have hlengthByte := frameBytes_lengthByte (kind := .presence) (sender := sender) (stamp := stamp) hlen
  have hcount : byteAt (frameBytes .presence sender stamp (announcedBytes a)) 15 = a.pairs.length :=
    (frameBytes_byte (i := 8) (by omega)).trans (announcedHead_read h).2.2.2.2.2.2
  refine ⟨frameBytes_checkOk hlen, frameKind_code (kind := .presence), ?_, ?_, frameBytes_sender hs, frameBytes_stamp,
    readPresence_frame h⟩
  · unfold formOk FrameKind.lengthOk
    simp only [hlengthByte, hcount, hpayload, Bool.and_eq_true, Bool.or_eq_true, decide_eq_true_iff]
    omega
  · rw [frameBytes_length, hpayload]
    omega

end Sys2Proof.Machine

/-! ### Frames received: checks 1 to 5 (R133–R137, R160) -/

namespace Sys2Proof.Machine

/-! #### A frame that ends (R134) -/

/-- R122, R134: the characters read and the record closed, before the checks of the frame. -/
def State.frameRead (s : State) : State :=
  { s with qlc := { s.qlc with idleIn := 100, rx := none }, raised := s.raisedAfter }

theorem State.dropLineIdle (s : State) : (s.dropEvents isLineIdle).raised = s.raisedAfter := by
  unfold State.dropEvents State.raisedAfter isLineIdle
  simp only [decide_not]

theorem exec_frameReceived {s : State} (h : s.pins.rstLow = false) (brought : List Byte) :
    exec (.frameReceived brought) s = .next (s.frameReceived brought) :=
  congrArg _ (State.unlessHeld_high h _)

theorem exec_frameEnds {s : State} {r : RxFrame} {brought f : List Byte} (h : FrameEnds s r brought f) :
    exec (.frameReceived brought) s = .next (s.frameRead.receive f r.arrival) := by
  obtain ⟨⟨hrst, hrx, -⟩, rfl, hwhole⟩ := h
  have hread : s.charsRead.mapQlc (fun q => { q with rx := none }) = s.frameRead := by
    unfold State.charsRead State.frameRead
    rw [← s.dropLineIdle]
    rfl
  rw [exec_frameReceived hrst]
  unfold State.frameReceived State.readChars State.endFrame
  rw [hrx]
  simp only
  rw [if_pos hwhole, hread]

/-- R123: a frame as it is sent ends with its last character. -/
theorem FrameArrives.ends {s : State} {r : RxFrame} {brought : List Byte} {kind : FrameKind} {sender : Nat}
    {stamp : Time} {payload : List Byte} (hlen : payload.length < 249)
    (h : FrameArrives s r brought (frameBytes kind sender stamp payload)) :
    FrameEnds s r brought (frameBytes kind sender stamp payload) := by
  obtain ⟨hrst, hrx, hchars⟩ := h
  have hbyte := frameBytes_lengthByte (kind := kind) (sender := sender) (stamp := stamp) hlen
  have hlength := frameBytes_length (kind := kind) (sender := sender) (stamp := stamp) (payload := payload)
  unfold FrameEnds FrameArrives frameChars frameWhole
  rw [hchars, hbyte, hlength]
  exact ⟨⟨hrst, hrx, rfl⟩, (List.take_of_length_le (by omega)).symm, decide_eq_true ⟨by omega, le_rfl⟩⟩

/-! #### Checks 1 and 2 (R136) -/

theorem checkOk_iff {f : List Byte} : checkOk f = true ↔ CrcRight f := by
  unfold checkOk CrcRight
  simp only [Bool.and_eq_true, decide_eq_true_iff, and_assoc]

theorem frameKind_eq_some {n : Nat} {k : FrameKind} : frameKind n = some k ↔ n = k.code.toNat := by
  constructor
  · unfold frameKind
    split <;> rintro ⟨⟩ <;> rfl
  · rintro rfl
    exact frameKind_code

theorem formRight_iff {f : List Byte} :
    FormRight f ↔ ∃ k, frameKind (byteAt f 0) = some k ∧ formOk k f = true := by
  have hform : ∀ k, formOk k f = true ↔ k.lengthOk (byteAt f 1) = true ∧
      (k ≠ .presence ∨ byteAt f 15 = (byteAt f 1 - 16) / 2) := fun k => by
    unfold formOk
    simp only [Bool.and_eq_true, Bool.or_eq_true, decide_eq_true_iff]
  simp only [frameKind_eq_some, hform]
  unfold FormRight
  constructor
  · rintro (⟨hk, hle, hlen⟩ | ⟨hk, hlen⟩ | ⟨hk, hlen⟩)
    · refine ⟨.presence, hk, decide_eq_true ?_, .inr ?_⟩ <;> omega
    · exact ⟨.sighting, hk, decide_eq_true hlen, .inl nofun⟩
    · exact ⟨.zone, hk, decide_eq_true hlen, .inl nofun⟩
  · rintro ⟨k, hk, hlen, hcount⟩
    cases k with
    | presence =>
      have hlen := of_decide_eq_true hlen
      have hcount := hcount.resolve_left fun h => h rfl
      refine .inl ⟨hk, ?_, ?_⟩ <;> omega
    | sighting => exact .inr (.inl ⟨hk, of_decide_eq_true hlen⟩)
    | zone => exact .inr (.inr ⟨hk, of_decide_eq_true hlen⟩)

section
variable {s : State} {f : List Byte} {arrival : Time}

theorem State.receive_unchecked (h : ¬CrcRight f) : s.receive f arrival = s.reject 1 f := by
  unfold State.receive
  rw [if_pos]
  rw [Bool.not_eq_true', ← Bool.not_eq_true, checkOk_iff]
  exact h

theorem State.receive_checked (h : CrcRight f) : s.receive f arrival =
    match frameKind (byteAt f 0) with
    | none => s.advanceRotation.reject 2 f
    | some k => if formOk k f then s.advanceRotation.checkSender k f arrival else s.advanceRotation.reject 2 f := by
  unfold State.receive
  rw [checkOk_iff.2 h]
  rfl

theorem State.receive_unformed (h : CrcRight f) (hform : ¬FormRight f) :
    s.receive f arrival = s.advanceRotation.reject 2 f := by
  rw [State.receive_checked h]
  cases hk : frameKind (byteAt f 0) with
  | none => rfl
  | some k => exact if_neg fun hok => hform (formRight_iff.2 ⟨k, hk, hok⟩)

theorem State.receive_passed (h : CrcRight f) {k : FrameKind} (hk : frameKind (byteAt f 0) = some k)
    (hform : formOk k f = true) : s.receive f arrival = s.advanceRotation.checkSender k f arrival := by
  rw [State.receive_checked h, hk]
  exact if_pos hform

end

/-! #### The heard notice (R160, R163) -/

theorem State.rosterState_some {s : State} {n : Nat} {e : RosterEntry} (h : s.rosterOf n = some e) :
    s.rosterState n = some e.state := by
  unfold State.rosterState
  rw [h]
  rfl

/-- R160, R163: all that a heard notice changes. -/
theorem State.heard_frame (s : State) (n : Nat) : s.heard n = { s with
    prt := { s.prt with roster := (s.heard n).prt.roster }, raised := s.raised ++ heardEvents s n } := by
  have hquiet : ¬(s.rosterState n = some .absent ∨ s.rosterState n = some .silent) → heardEvents s n = [] :=
    fun h => if_neg fun hand => h hand.1
  unfold State.heard
  cases he : s.rosterOf n with
  | none =>
    rw [hquiet (by simp [State.rosterState, he]), List.append_nil]
  | some e =>
    have hstate := State.rosterState_some he
    by_cases hself : e.state = .self
    · simp only
      rw [if_pos hself, hquiet (by simp [hstate, hself]), List.append_nil]
    · simp only
      rw [if_neg hself, State.writeRoster_eq]
      have hevents : (if e.state ≠ heardState e.state ∧ s.ownsSource n = true then [Instr.evaluation] else []) =
          heardEvents s n := by
        unfold heardEvents
        rw [hstate]
        cases hcase : e.state <;> simp_all [heardState]
      rw [hevents]
      rfl

theorem State.heard_rosterOf_other (s : State) {n k : Nat} (hk : k ≠ n) : (s.heard n).rosterOf k = s.rosterOf k := by
  unfold State.heard
  cases he : s.rosterOf n with
  | none => rfl
  | some e =>
    simp only
    split
    · rfl
    · exact State.rosterOf_writeRoster_other (State.rosterOf_some he).1 hk _ _

/-- R160: the entry of a listed peer once it has been heard. -/
theorem State.heard_rosterOf {s : State} {n : Nat} {e : RosterEntry} (he : s.rosterOf n = some e)
    (hself : e.state ≠ .self) (hl : stationPresent s.tables n = true) : (s.heard n).rosterOf n = some { e with
      state := if e.state = .mismatch then .mismatch else .present
      lastHeard := s.prt.time, deadline := some (s.prt.time + 24000) } := by
  have hstate : heardState e.state = if e.state = .mismatch then .mismatch else .present := by
    cases hcase : e.state <;> first | rfl | exact absurd hcase hself
  unfold State.heard
  rw [he]
  simp only
  rw [if_neg hself, State.rosterOf_writeRoster_same he, hl, RosterEntry.asListed_listed, hstate]
  rfl

/-- R160: a MISMATCH stays one as it is heard, and no other entry becomes one. -/
theorem State.heard_mismatch {s : State} {n : Nat} (hl : stationPresent s.tables n = true) :
    (s.heard n).rosterState n = some .mismatch ↔ s.rosterState n = some .mismatch := by
  cases he : s.rosterOf n with
  | none =>
    have hheard : s.heard n = s := by
      unfold State.heard
      rw [he]
    rw [hheard]
  | some e =>
    by_cases hself : e.state = .self
    · have hheard : s.heard n = s := by
        unfold State.heard
        rw [he]
        exact if_pos hself
      rw [hheard]
    · rw [State.rosterState_some (State.heard_rosterOf he hself hl), State.rosterState_some he]
      by_cases hm : e.state = .mismatch <;> simp [hm]

/-- R158, R159: the roster entry of a listed station. -/
theorem RosterOk.entry {s : State} (h : RosterOk s) {n : Nat} (hl : stationPresent s.tables n = true) :
    ∃ e, s.rosterOf n = some e ∧ (e.state = .self ↔ n = s.scs.own) := by
  obtain ⟨-, -, hlen, hok⟩ := h
  obtain ⟨h1, h32⟩ := stationPresent_range hl
  have hlt : n - 1 < s.prt.roster.length := by omega
  refine ⟨s.prt.roster[n - 1], ?_, ?_⟩
  · unfold State.rosterOf
    rw [if_neg (by omega), List.getElem?_eq_getElem hlt, hl, Option.map_some, RosterEntry.asListed_listed]
  · have hentry := (hok (n - 1) _ (List.getElem?_eq_getElem hlt)).1
    rw [show n - 1 + 1 = n by omega] at hentry
    exact hentry

/-! #### Checks 3 to 5 (R137) -/

section
variable {s : State} {k : FrameKind} {f : List Byte} {arrival : Time}

theorem State.checkSender_unlisted (h : stationPresent s.tables (byteAt f 2) = false) :
    s.checkSender k f arrival = s.reject 3 f := by
  unfold State.checkSender
  simp only [h]
  rfl

theorem State.checkSender_own (h : stationPresent s.tables (byteAt f 2) = true) (hown : byteAt f 2 = s.scs.own) :
    s.checkSender k f arrival = ((s.heard (byteAt f 2)).reject 4 f).faultEvent .duplicateStation := by
  unfold State.checkSender
  simp only [h, Bool.not_true, Bool.false_eq_true, if_false]
  exact if_pos hown

theorem State.checkSender_mismatch (h : stationPresent s.tables (byteAt f 2) = true) (hown : byteAt f 2 ≠ s.scs.own)
    (hk : k ≠ .presence) (hm : s.rosterState (byteAt f 2) = some .mismatch) :
    s.checkSender k f arrival = (s.heard (byteAt f 2)).reject 5 f := by
  unfold State.checkSender
  simp only [h, Bool.not_true, Bool.false_eq_true, if_false]
  rw [if_neg hown, if_pos ⟨hk, (State.heard_mismatch h).2 hm⟩]

theorem State.checkSender_peer (h : stationPresent s.tables (byteAt f 2) = true) (hown : byteAt f 2 ≠ s.scs.own)
    (hm : k = .presence ∨ s.rosterState (byteAt f 2) ≠ some .mismatch) :
    s.checkSender k f arrival = (s.heard (byteAt f 2)).dispatch k f arrival := by
  unfold State.checkSender
  simp only [h, Bool.not_true, Bool.false_eq_true, if_false]
  rw [if_neg hown, if_neg]
  rintro ⟨hk, hmis⟩
  exact hm.elim hk fun hno => hno ((State.heard_mismatch h).1 hmis)

end

/-- R133–R137: the state that the dispatch of a frame finds, once its sender has been heard. -/
def State.framePassed (s : State) (sender : Nat) : State := s.frameRead.advanceRotation.heard sender

theorem State.framePassed_eq (s : State) (sender : Nat) : s.framePassed sender = { s with
    prt := { s.prt with roster := (s.framePassed sender).prt.roster }, qlc := s.qlc.afterFrame
    raised := s.raisedAfter ++ heardEvents s sender } := State.heard_frame _ _

/-- R160: reception up to the dispatch touches roster, line and events alone. -/
theorem State.framePassed_fields (s : State) (sender : Nat) :
    (s.framePassed sender).zev = s.zev ∧ (s.framePassed sender).tracks = s.tracks ∧
    (s.framePassed sender).nq = s.nq ∧ (s.framePassed sender).qlc = s.qlc.afterFrame ∧
    (s.framePassed sender).tables = s.tables ∧ (s.framePassed sender).scs = s.scs ∧
    (s.framePassed sender).prt.time = s.prt.time := by
  rw [s.framePassed_eq]
  exact ⟨rfl, rfl, rfl, rfl, rfl, rfl, rfl⟩

theorem State.framePassed_rosterOf_other (s : State) {sender n : Nat} (h : n ≠ sender) :
    (s.framePassed sender).rosterOf n = s.rosterOf n := State.heard_rosterOf_other _ h

/-- R133–R137: a frame as a listed peer sends it, its entry no MISMATCH unless it is a PRESENCE, comes to its
dispatch. -/
theorem exec_frame_dispatched {s : State} {r : RxFrame} {brought : List Byte} {kind : FrameKind} {sender : Nat}
    {stamp : Time} {payload : List Byte} (hlen : payload.length < 249) (hsender : sender ≤ 32)
    (hform : formOk kind (frameBytes kind sender stamp payload) = true)
    (h : FrameArrives s r brought (frameBytes kind sender stamp payload))
    (hl : stationPresent s.tables sender = true) (hown : sender ≠ s.scs.own)
    (hm : kind = .presence ∨ s.rosterState sender ≠ some .mismatch) :
    exec (.frameReceived brought) s =
      .next ((s.framePassed sender).dispatch kind (frameBytes kind sender stamp payload) r.arrival) := by
  have hbyte := frameBytes_sender (kind := kind) (stamp := stamp) (payload := payload) hsender
  have hpeer := State.checkSender_peer (s := s.frameRead.advanceRotation) (k := kind)
    (f := frameBytes kind sender stamp payload) (arrival := r.arrival)
  rw [hbyte] at hpeer
  rw [exec_frameEnds (h.ends hlen), State.receive_passed (checkOk_iff.1 (frameBytes_checkOk hlen))
    (frameKind_code (kind := kind)) hform, hpeer hl hown hm]
  rfl

end Sys2Proof.Machine

/-! ### Mirrors and reports (R105–R111, O42, O52) -/

namespace Sys2Proof.Machine

/-! #### The mirror part of an evaluation (R106–R111) -/

section
variable {z : ZoneState} {reported : Level} {now : Time} {hold : Nat}

theorem ZoneState.settleMirror_good : z.settleMirror true reported now hold =
    { z with contribution := reported, lost := false, lostDeadline := none } := rfl

theorem ZoneState.settleMirror_falls (h : z.lost = false) : z.settleMirror false reported now hold =
    { z with lost := true, lostDeadline := some (now + seconds hold) } := by
  unfold ZoneState.settleMirror
  rw [h]
  rfl

theorem ZoneState.settleMirror_rests (h : z.lost = true)
    (hd : ∀ d, z.lostDeadline = some d → reached now d = false) : z.settleMirror false reported now hold = z := by
  unfold ZoneState.settleMirror
  rw [h]
  simp only [Bool.false_eq_true, if_false, Bool.not_true]
  split
  · rfl
  · next d hdl =>
    rw [hd d hdl]
    rfl

theorem ZoneState.settleMirror_down (h : z.lost = true) {d : Time} (hdl : z.lostDeadline = some d)
    (hr : reached now d = true) : z.settleMirror false reported now hold =
      if Level.watch.toNat < z.contribution.toNat then { z with
        contribution := z.contribution.drop
        lostDeadline := if Level.watch.toNat < z.contribution.drop.toNat then some (now + seconds hold) else none }
      else { z with lostDeadline := none } := by
  unfold ZoneState.settleMirror
  rw [h, hdl]
  simp only [Bool.false_eq_true, if_false, Bool.not_true]
  rw [if_pos hr]

end

/-- R106–R111: the contribution and the LOST state follow the source. -/
theorem settleMirror_follows (good : Bool) (r : Received) (now : Time) (hold : Nat) (z : ZoneState) :
    MirrorFollows (good = true) r now hold z
      { z.settleMirror good r.level now hold with degraded := !good || r.lostMark } := by
  cases good with
  | true => exact ⟨fun _ => ⟨rfl, rfl, rfl, rfl⟩, fun h => absurd rfl h, fun h => absurd rfl h, fun h => absurd rfl h⟩
  | false =>
    refine ⟨nofun, fun _ => ⟨?_, rfl⟩, fun _ hl => ?_, fun _ hl => ⟨fun hd => ?_, fun d hd hr => ?_, fun d hd hr => ?_⟩⟩
    · cases hl : z.lost with
      | false => rw [ZoneState.settleMirror_falls hl]
      | true =>
        cases hd : z.lostDeadline with
        | none => rw [ZoneState.settleMirror_rests hl (by rw [hd]; exact nofun), hl]
        | some d =>
          cases hr : reached now d with
          | false =>
            rw [ZoneState.settleMirror_rests hl fun d' hd' => Option.some.inj (hd.symm.trans hd') ▸ hr, hl]
          | true =>
            rw [ZoneState.settleMirror_down hl hd hr]
            split
            · exact hl
            · exact hl
    · rw [ZoneState.settleMirror_falls hl]
      exact ⟨rfl, rfl⟩
    · rw [ZoneState.settleMirror_rests hl (by rw [hd]; exact nofun)]
      exact ⟨rfl, hd⟩
    · rw [ZoneState.settleMirror_rests hl fun d' hd' => Option.some.inj (hd.symm.trans hd') ▸ hr]
      exact ⟨rfl, hd⟩
    · rw [ZoneState.settleMirror_down hl hd hr]
      refine ⟨fun hc => ?_, fun hc => ?_, fun hc => ?_⟩
      · have hlow : ¬Level.watch.toNat < z.contribution.toNat := by
          obtain hc | hc := hc <;> rw [hc] <;> decide
        rw [if_neg hlow]
        exact ⟨rfl, rfl⟩
      · rw [hc]
        exact ⟨rfl, rfl⟩
      · rw [hc]
        exact ⟨rfl, rfl⟩

theorem sourceGood_iff {s : State} {source : Nat} {r : Received} (h : s.receivedOf source = some r) :
    s.sourceGood source = true ↔ SourceIsGood s source r := by
  unfold State.sourceGood SourceIsGood
  rw [h]
  simp only [Bool.and_eq_true, decide_eq_true_iff]
  rfl

theorem State.mirrorPart_mirrors {s : State} {z : ZoneState} (h : (zoneRec s.tables z.zone).kind.mirrors = true)
    {r : Received} (hr : s.receivedOf (zoneRec s.tables z.zone).source = some r) : s.mirrorPart z =
      { z.settleMirror (s.sourceGood (zoneRec s.tables z.zone).source) r.level s.prt.time
          (zoneRec s.tables z.zone).holdTime with
        degraded := !s.sourceGood (zoneRec s.tables z.zone).source || r.lostMark } := by
  unfold State.mirrorPart
  simp only
  rw [if_pos h, hr]
  rfl

theorem State.mirrorPart_computes {s : State} {z : ZoneState} (h : (zoneRec s.tables z.zone).kind.mirrors = false) :
    s.mirrorPart z = z := if_neg (Bool.eq_false_iff.1 h)

/-- R106: the mirror part looks at contribution and LOST state alone. -/
theorem MirrorFollows.congr {good : Prop} {r : Received} {now : Time} {hold : Nat} {z z' w w' : ZoneState}
    (h : MirrorFollows good r now hold z z')
    (hw : w.contribution = z.contribution ∧ w.lost = z.lost ∧ w.lostDeadline = z.lostDeadline)
    (hw' : w'.contribution = z'.contribution ∧ w'.lost = z'.lost ∧ w'.lostDeadline = z'.lostDeadline ∧
      w'.degraded = z'.degraded) : MirrorFollows good r now hold w w' := by
  obtain ⟨hc, hl, hd⟩ := hw
  obtain ⟨hc', hl', hd', hg'⟩ := hw'
  simp only [MirrorFollows, hc, hl, hd, hc', hl', hd', hg']
  exact h

/-- R84: of the mirror fields an evaluation keeps what its mirror part leaves. -/
theorem State.evalZone_mirror (s : State) (z : ZoneState) :
    (s.evalZone z).contribution = (s.mirrorPart (s.demanded z)).contribution ∧
    (s.evalZone z).lost = (s.mirrorPart (s.demanded z)).lost ∧
    (s.evalZone z).lostDeadline = (s.mirrorPart (s.demanded z)).lostDeadline ∧
    (s.evalZone z).degraded = (s.mirrorPart (s.demanded z)).degraded := by
  rw [State.evalZone_eq]
  exact ⟨rfl, rfl, rfl, rfl⟩

theorem State.evalZone_mirrorFollows {s : State} {z : ZoneState} (h : (zoneRec s.tables z.zone).kind.mirrors = true)
    {r : Received} (hr : s.receivedOf (zoneRec s.tables z.zone).source = some r) :
    MirrorFollows (SourceIsGood s (zoneRec s.tables z.zone).source r) r s.prt.time
      (zoneRec s.tables z.zone).holdTime z (s.evalZone z) := by
  have hpart := State.mirrorPart_mirrors (s := s) (z := s.demanded z) h hr
  have hmirror := s.evalZone_mirror z
  rw [hpart] at hmirror
  rw [← propext (sourceGood_iff hr)]
  exact (settleMirror_follows _ r s.prt.time _ (s.demanded z)).congr ⟨rfl, rfl, rfl⟩ hmirror

/-! #### Reports (R105) -/

theorem find_map_zone (r : Received) (k : Nat) (l : List Received) :
    (l.map fun x => if x.zone = r.zone then r else x).find? (fun x => decide (x.zone = k)) =
      (l.find? fun x => decide (x.zone = k)).map fun x => if k = r.zone then r else x := by
  induction l with
  | nil => rfl
  | cons x l ih =>
    rw [List.map_cons, List.find?_cons, List.find?_cons, ih]
    by_cases hx : x.zone = r.zone
    · rw [if_pos hx, ← hx]
      by_cases hk : x.zone = k
      · rw [decide_eq_true hk]
        simp [hk]
      · rw [decide_eq_false hk]
    · rw [if_neg hx]
      by_cases hk : x.zone = k
      · rw [decide_eq_true hk]
        simp [← hk, hx]
      · rw [decide_eq_false hk]

/-- R105: the record that a report leaves. -/
def State.reportOf (s : State) (zone : Nat) (level : Level) (lostMark : Bool) : Received :=
  { zone := zone, received := true, level := level, lostMark := lostMark, receipt := s.prt.time }

section
variable {s : State} {zone : Nat} {level : Level} {mark : Option Bool}

theorem State.takeReport_ignored (h : s.active = false ∨ s.receivedOf zone = none) :
    s.takeReport zone level mark = s := by
  unfold State.takeReport
  split
  · next ha =>
    rw [h.resolve_left (fun hno => Bool.false_ne_true (hno.symm.trans ha))]
  · rfl

/-- R105: a report of a mirror source. -/
theorem State.takeReport_taken (ha : s.active = true) {old : Received} (ho : s.receivedOf zone = some old) :
    s.takeReport zone level mark = { s with
      zev := { s.zev with received := s.zev.received.map fun x =>
        if x.zone = zone then s.reportOf zone level (mark.getD old.lostMark) else x }
      raised := s.raised ++ if level = old.level ∧ mark.getD old.lostMark = old.lostMark then []
        else [.evaluation] } := by
  unfold State.takeReport
  rw [if_pos ha, ho]
  simp only
  split
  · rw [List.append_nil]
    rfl
  · rfl

theorem State.takeReport_receivedOf (ha : s.active = true) {old : Received} (ho : s.receivedOf zone = some old) :
    (s.takeReport zone level mark).receivedOf zone = some (s.reportOf zone level (mark.getD old.lostMark)) ∧
    ∀ z, z ≠ zone → (s.takeReport zone level mark).receivedOf z = s.receivedOf z := by
  have hfind := fun k => find_map_zone (s.reportOf zone level (mark.getD old.lostMark)) k s.zev.received
  rw [State.takeReport_taken ha ho]
  refine ⟨(hfind zone).trans ?_, fun z hz => (hfind z).trans ?_⟩
  · change Option.map _ (s.receivedOf zone) = _
    rw [ho]
    exact congrArg some (if_pos rfl)
  · change Option.map _ (s.receivedOf z) = _
    have hid : (fun x : Received => if z = (s.reportOf zone level (mark.getD old.lostMark)).zone then
        s.reportOf zone level (mark.getD old.lostMark) else x) = id := funext fun x => if_neg hz
    rw [hid, Option.map_id, id]

end

/-! #### The ZONE frame (R105, R139) -/

theorem zoneFrame_read {sender zone : Nat} {stamp : Time} {level : Level} (hz : zone ≤ 255) :
    formOk .zone (frameBytes .zone sender stamp [byteOf zone, byteOf level.toNat]) = true ∧
    byteAt (frameBytes .zone sender stamp [byteOf zone, byteOf level.toNat]) 7 = zone ∧
    Level.ofNat? (byteAt (frameBytes .zone sender stamp [byteOf zone, byteOf level.toNat]) 8) = some level := by
  have hlevel : byteAt (frameBytes .zone sender stamp [byteOf zone, byteOf level.toNat]) 8 = level.toNat :=
    toNat_byteOf (level.toNat_le.trans_lt (by decide))
  refine ⟨rfl, toNat_byteOf (by omega), ?_⟩
  rw [hlevel]
  exact level.ofNat_toNat

/-- R139, R105: the dispatch of a ZONE frame. -/
theorem State.dispatch_zone (s : State) {sender zone : Nat} {stamp : Time} {level : Level} (hs : sender ≤ 32)
    (hz : zone ≤ 255) (arrival : Time) :
    let f := frameBytes .zone sender stamp [byteOf zone, byteOf level.toNat]
    s.dispatch .zone f arrival =
      if (site s.tables).zoneCount ≤ zone then s.reject 8 f
      else if zonePresent s.tables zone = false then s.reject 9 f
      else if (zoneRec s.tables zone).owner ≠ sender then s.reject 10 f
      else s.takeReport zone level none := by
  obtain ⟨-, h7, h8⟩ := zoneFrame_read (sender := sender) (stamp := stamp) (level := level) hz
  have hsender := frameBytes_sender (kind := .zone) (stamp := stamp) (payload := [byteOf zone, byteOf level.toNat]) hs
  unfold State.dispatch
  simp only
  rw [h7, h8, hsender]
  simp only [Bool.not_eq_true']

/-- R141: the record of a rejected frame, as the frame was sent. -/
theorem reject_frameBytes (s : State) (cause : Nat) (kind : FrameKind) (sender : Nat) (stamp : Time)
    (payload : List Byte) : s.reject cause (frameBytes kind sender stamp payload) = { s with
      qlc := { s.qlc with rejectCause := cause, rejectSender := byteOf sender, rejectKind := kind.code } } := rfl

/-- R105, R135, R139: a peer's ZONE frame. -/
theorem zoneFrame_taken {s : State} {r : RxFrame} {brought : List Byte} {sender zone : Nat} {stamp : Time}
    {level : Level} (hz : zone ≤ 255)
    (harr : FrameArrives s r brought (frameBytes .zone sender stamp [byteOf zone, byteOf level.toNat]))
    (hpeer : FromPeer s sender) :
    exec (.frameReceived brought) s = .next (
      let u := s.framePassed sender
      let f := frameBytes .zone sender stamp [byteOf zone, byteOf level.toNat]
      if (site s.tables).zoneCount ≤ zone then u.reject 8 f
      else if zonePresent s.tables zone = false then u.reject 9 f
      else if (zoneRec s.tables zone).owner ≠ sender then u.reject 10 f
      else u.takeReport zone level none) := by
  obtain ⟨hl, hown, hm⟩ := hpeer
  have hs := (stationPresent_range hl).2
  have htables : (s.framePassed sender).tables = s.tables := by rw [State.framePassed_eq]
  have hlen : ([byteOf zone, byteOf level.toNat] : List Byte).length < 249 := show 2 < 249 by decide
  rw [exec_frame_dispatched hlen hs (zoneFrame_read hz).1 harr hl hown (.inr hm), State.dispatch_zone _ hs hz,
    htables]

/-- Settles O42: zone by zone the mirror part; a ZONE frame by its four outcomes. -/
theorem evaluationMirrors : Obligations.EvaluationMirrors := by
  refine ⟨fun c s hc hrst ha => ?_, fun s r brought sender stamp zone level hz harr hpeer => ?_⟩
  · obtain ⟨t, hexec, -, -, hzev⟩ := evaluation_active hc hrst ha
    refine ⟨t, hexec, fun k z z' hk hk' => ?_⟩
    obtain rfl := evaluated_at hzev hk hk'
    refine ⟨fun hm r hr => State.evalZone_mirrorFollows hm hr, fun hm => ?_⟩
    have hmirror := s.evalZone_mirror z
    rw [State.mirrorPart_computes (z := s.demanded z) hm] at hmirror
    exact hmirror
  · obtain ⟨hzev, htracks, hnq, hqlc, -, hscs, htime⟩ := s.framePassed_fields sender
    have hrejected : ∀ cause, ((s.framePassed sender).reject cause
        (frameBytes .zone sender stamp [byteOf zone, byteOf level.toNat])).qlc = s.qlc.afterReject cause sender 0x33 :=
      fun cause => by
        rw [reject_frameBytes, hqlc]
        rfl
    have hreceived : ∀ z, (s.framePassed sender).receivedOf z = s.receivedOf z := fun z => by
      unfold State.receivedOf
      rw [hzev]
    have hactive : (s.framePassed sender).active = s.active := by
      unfold State.active
      rw [hscs]
    refine ⟨_, zoneFrame_taken hz harr hpeer, ?_⟩
    simp only
    by_cases hcount : (site s.tables).zoneCount ≤ zone
    · rw [if_pos hcount]
      have hno : zoneDescribed s.tables zone ≠ true := fun hd =>
        absurd hcount (Nat.not_le.2 (of_decide_eq_true (Bool.and_eq_true_iff.1 hd).1))
      exact ⟨congrArg Zev.zones hzev, htracks, hnq, fun _ => ⟨hzev, hrejected 8⟩,
        fun hlt => absurd hcount (Nat.not_le.2 hlt), fun hlt => absurd hcount (Nat.not_le.2 hlt),
        fun hd => absurd hd hno⟩
    rw [if_neg hcount]
    by_cases hpresent : zonePresent s.tables zone = false
    · rw [if_pos hpresent]
      have hno : zoneDescribed s.tables zone ≠ true := fun hd =>
        Bool.false_ne_true (hpresent.symm.trans (Bool.and_eq_true_iff.1 hd).2)
      exact ⟨congrArg Zev.zones hzev, htracks, hnq, fun hle => absurd hle hcount, fun _ _ => ⟨hzev, hrejected 9⟩,
        fun _ hp => absurd (hpresent.symm.trans hp) Bool.false_ne_true, fun hd => absurd hd hno⟩
    rw [if_neg hpresent]
    by_cases howner : (zoneRec s.tables zone).owner = sender
    · rw [if_neg (not_not.2 howner)]
      have honly := (s.framePassed sender).takeReport_only zone level none
      have hzones : ((s.framePassed sender).takeReport zone level none).zev.zones = s.zev.zones := by
        rw [honly]
        exact (congrArg Zev.zones hzev : (s.framePassed sender).zev.zones = _)
      refine ⟨hzones, ?_, ?_, fun hle => absurd hle hcount, fun _ hp => absurd hp hpresent,
        fun _ _ hne => absurd howner hne, fun _ _ => ⟨?_, fun hno => ?_, fun old ha ho => ⟨?_, fun z hne => ?_, ?_⟩⟩⟩
      · rw [honly]
        exact htracks
      · rw [honly]
        exact hnq
      · rw [honly]
        exact hqlc
      · rw [State.takeReport_ignored (by rw [hactive, hreceived]; exact hno), hzev]
      · rw [(State.takeReport_receivedOf (hactive.trans ha) ((hreceived zone).trans ho)).1, ← htime]
        rfl
      · rw [(State.takeReport_receivedOf (hactive.trans ha) ((hreceived zone).trans ho)).2 z hne, hreceived]
      · intro hne
        rw [State.takeReport_taken (hactive.trans ha) ((hreceived zone).trans ho), if_neg fun h => hne h.1]
        exact ⟨_, rfl⟩
    · rw [if_pos howner]
      exact ⟨congrArg Zev.zones hzev, htracks, hnq, fun hle => absurd hle hcount, fun _ hp => absurd hp hpresent,
        fun _ _ _ => ⟨hzev, hrejected 10⟩, fun _ hown => absurd hown howner⟩

end Sys2Proof.Machine

/-! ### A PRESENCE taken (R105, R160, R161, R165, O52) -/

namespace Sys2Proof.Machine

/-! #### The zone list (R105) -/

/-- R105: one pair of the zone list of a PRESENCE. -/
def State.takePair (s : State) (sender : Nat) (p : ZonePair) : State :=
  if zoneDescribed s.tables p.zone && decide ((zoneRec s.tables p.zone).owner = sender) &&
      decide (s.rosterState sender = some .present) then
    s.takeReport p.zone p.level (some p.lostMark)
  else s

theorem State.takePairs_cons (s : State) (sender : Nat) (p : ZonePair) (ps : List ZonePair) :
    s.takePairs sender (p :: ps) = (s.takePair sender p).takePairs sender ps := rfl

section
variable {s : State} {sender : Nat} {p : ZonePair}

theorem State.takePair_only : OnlyReports s (s.takePair sender p) := by
  unfold State.takePair
  split
  · exact s.takeReport_only _ _ _
  · rfl

theorem State.takePair_ignored (h : zoneDescribed s.tables p.zone = false ∨
    (zoneRec s.tables p.zone).owner ≠ sender ∨ s.rosterState sender ≠ some .present ∨ s.active = false) :
    s.takePair sender p = s := by
  unfold State.takePair
  split
  · next hc =>
    simp only [Bool.and_eq_true, decide_eq_true_iff] at hc
    obtain ⟨⟨hd, ho⟩, hp⟩ := hc
    obtain h | h | h | h := h
    · exact absurd (h.symm.trans hd) Bool.false_ne_true
    · exact absurd ho h
    · exact absurd hp h
    · exact State.takeReport_ignored (.inl h)
  · rfl

theorem State.takePair_taken (hd : zoneDescribed s.tables p.zone = true)
    (ho : (zoneRec s.tables p.zone).owner = sender) (hp : s.rosterState sender = some .present) :
    s.takePair sender p = s.takeReport p.zone p.level (some p.lostMark) := by
  unfold State.takePair
  rw [hd, decide_eq_true ho, decide_eq_true hp]
  rfl

theorem State.takeReport_receivedOf_other (s : State) {zone z : Nat} (hz : z ≠ zone) (level : Level)
    (mark : Option Bool) : (s.takeReport zone level mark).receivedOf z = s.receivedOf z := by
  by_cases h : s.active = false ∨ s.receivedOf zone = none
  · rw [State.takeReport_ignored h]
  · obtain ⟨ha, ho⟩ := not_or.1 h
    obtain ⟨old, ho⟩ := Option.ne_none_iff_exists'.1 ho
    exact (State.takeReport_receivedOf (Bool.not_eq_false _ ▸ ha) ho).2 z hz

theorem State.takePair_receivedOf_other {z : Nat} (hz : z ≠ p.zone) :
    (s.takePair sender p).receivedOf z = s.receivedOf z := by
  unfold State.takePair
  split
  · exact s.takeReport_receivedOf_other hz _ _
  · rfl

theorem State.takeReport_raised (s : State) (zone : Nat) (level : Level) (mark : Option Bool) {e : Instr}
    (he : e ∈ s.raised) : e ∈ (s.takeReport zone level mark).raised := by
  by_cases h : s.active = false ∨ s.receivedOf zone = none
  · rw [State.takeReport_ignored h]
    exact he
  · obtain ⟨ha, ho⟩ := not_or.1 h
    obtain ⟨old, ho⟩ := Option.ne_none_iff_exists'.1 ho
    rw [State.takeReport_taken (Bool.not_eq_false _ ▸ ha) ho]
    exact List.mem_append_left _ he

theorem State.takePair_raised {e : Instr} (he : e ∈ s.raised) : e ∈ (s.takePair sender p).raised := by
  unfold State.takePair
  split
  · exact s.takeReport_raised _ _ _ he
  · exact he

end

theorem State.takePairs_raised (s : State) (sender : Nat) (ps : List ZonePair) {e : Instr} (he : e ∈ s.raised) :
    e ∈ (s.takePairs sender ps).raised := by
  induction ps generalizing s with
  | nil => exact he
  | cons p ps ih => exact ih _ (State.takePair_raised he)

/-- R105: what reports leave alone decides whether further pairs are taken. -/
theorem OnlyReports.rosterState {s t : State} (h : OnlyReports s t) (n : Nat) : t.rosterState n = s.rosterState n := by
  rw [h]
  rfl

theorem OnlyReports.tables {s t : State} (h : OnlyReports s t) : t.tables = s.tables := by rw [h]
theorem OnlyReports.active {s t : State} (h : OnlyReports s t) : t.active = s.active := by
  rw [h]
  rfl

theorem State.takePairs_ignored {s : State} {sender : Nat}
    (h : s.rosterState sender ≠ some .present ∨ s.active = false) (ps : List ZonePair) :
    s.takePairs sender ps = s := by
  induction ps with
  | nil => rfl
  | cons p ps ih => rw [State.takePairs_cons, State.takePair_ignored (.inr (.inr h)), ih]

/-- R105: a record that no pair of the sender names stays. -/
theorem State.takePairs_receivedOf_unnamed {s : State} {sender z : Nat} {ps : List ZonePair}
    (h : ∀ p ∈ ps, p.zone = z → zoneDescribed s.tables z = false ∨ (zoneRec s.tables z).owner ≠ sender) :
    (s.takePairs sender ps).receivedOf z = s.receivedOf z := by
  induction ps generalizing s with
  | nil => rfl
  | cons p ps ih =>
    obtain ⟨hp, hps⟩ := List.forall_mem_cons.1 h
    have htables := (State.takePair_only (s := s) (sender := sender) (p := p)).tables
    rw [State.takePairs_cons, ih (by rw [htables]; exact hps)]
    by_cases hz : p.zone = z
    · subst hz
      rw [State.takePair_ignored ((hp rfl).imp_right .inl)]
    · exact State.takePair_receivedOf_other fun h => hz h.symm

/-- R105: a pair that names a described zone of the PRESENT sender, a mirror source, is its report. -/
theorem State.takePairs_reports {s : State} {sender : Nat} {ps : List ZonePair}
    (hpresent : s.rosterState sender = some .present) (ha : s.active = true) (hnodup : (ps.map (·.zone)).Nodup)
    {p : ZonePair} (hp : p ∈ ps) {old : Received} (hd : zoneDescribed s.tables p.zone = true)
    (howner : (zoneRec s.tables p.zone).owner = sender) (ho : s.receivedOf p.zone = some old) :
    (s.takePairs sender ps).receivedOf p.zone = some (s.reportOf p.zone p.level p.lostMark) ∧
    (p.level ≠ old.level ∨ p.lostMark ≠ old.lostMark → .evaluation ∈ (s.takePairs sender ps).raised) := by
  induction ps generalizing s with
  | nil => exact nomatch hp
  | cons x ps ih =>
    rw [List.map_cons, List.nodup_cons] at hnodup
    have honly := State.takePair_only (s := s) (sender := sender) (p := x)
    rw [State.takePairs_cons]
    obtain rfl | hmem := List.mem_cons.1 hp
    · have hno : ∀ y ∈ ps, y.zone ≠ p.zone := fun y hy he => hnodup.1 (he ▸ List.mem_map_of_mem hy)
      rw [State.takePairs_receivedOf_unnamed fun y hy he => absurd he (hno y hy)]
      rw [State.takePair_taken hd howner hpresent]
      refine ⟨(State.takeReport_receivedOf ha ho).1, fun hne => State.takePairs_raised _ _ _ ?_⟩
      rw [State.takeReport_taken ha ho, if_neg fun h => hne.elim (absurd h.1) (absurd h.2)]
      exact List.mem_append_right _ (List.mem_singleton.2 rfl)
    · have hne : p.zone ≠ x.zone := fun he => hnodup.1 (he ▸ List.mem_map_of_mem hmem)
      have hreport : (s.takePair sender x).reportOf p.zone p.level p.lostMark =
          s.reportOf p.zone p.level p.lostMark := by
        unfold State.reportOf
        rw [honly.prt]
      rw [← hreport]
      exact ih ((honly.rosterState sender).trans hpresent) (honly.active.trans ha) hnodup.2 hmem
        (by rw [honly.tables]; exact hd) (by rw [honly.tables]; exact howner)
        ((State.takePair_receivedOf_other hne).trans ho)

/-! #### The entry and the offset (R161, R165) -/

section
variable {s : State} {n : Nat} {offset : Int} {lock : Lock}

theorem State.collect_taken (ha : s.active = true) (hp : s.rosterState n = some .present) : s.collect n offset lock =
    { s with prt := { s.prt with offsets := (s.prt.offsets.filter fun o => decide (o.station ≠ n)) ++
      [{ station := n, offset := offset, lock := lock }] } } := by
  unfold State.collect
  rw [ha, decide_eq_true hp]
  rfl

theorem State.collect_ignored (h : s.rosterState n ≠ some .present ∨ s.active = false) :
    s.collect n offset lock = s := by
  unfold State.collect
  rw [if_neg]
  rw [Bool.and_eq_true, decide_eq_true_iff]
  rintro ⟨ha, hp⟩
  exact h.elim (absurd hp) fun hno => Bool.false_ne_true (hno.symm.trans ha)

theorem State.collect_frame : s.collect n offset lock =
    { s with prt := { s.prt with offsets := (s.collect n offset lock).prt.offsets } } := by
  unfold State.collect
  split <;> rfl

end

/-- R161: the roster entry that an accepted PRESENCE leaves. -/
def State.presenceEntry (s : State) (e : RosterEntry) (a : Announced) : RosterEntry := { e with
  state := if a.checksum = s.scs.checksum then .present else .mismatch
  announced := some a }

/-- R161: a PRESENCE of a listed peer, its zone list apart. -/
def State.presenceWritten (s : State) (n : Nat) (e : RosterEntry) (a : Announced) (offset : Int) : State :=
  (s.writeRoster n e (s.presenceEntry e a)).collect n offset a.lock

theorem State.takePresence_eq {s : State} {n : Nat} {e : RosterEntry} (he : s.rosterOf n = some e)
    (hself : e.state ≠ .self) (a : Announced) (stamp arrival : Time) : s.takePresence n a stamp arrival =
      (s.presenceWritten n e a (timeDiff stamp arrival)).takePairs n a.pairs := by
  unfold State.takePresence
  rw [he]
  exact if_neg hself

section
variable {s : State} {n : Nat} {e : RosterEntry} {a : Announced} {offset : Int}

theorem State.presenceWritten_frame : ∃ roster offsets r, s.presenceWritten n e a offset =
    { s with prt := { s.prt with roster := roster, offsets := offsets }, raised := r } := by
  unfold State.presenceWritten
  rw [State.collect_frame, State.writeRoster_eq]
  exact ⟨_, _, _, rfl⟩

theorem State.presenceWritten_rosterOf (he : s.rosterOf n = some e) (hl : stationPresent s.tables n = true) :
    (s.presenceWritten n e a offset).rosterOf n = some (s.presenceEntry e a) ∧
    ∀ k, k ≠ n → (s.presenceWritten n e a offset).rosterOf k = s.rosterOf k := by
  have hcollect : ∀ k, (s.presenceWritten n e a offset).rosterOf k =
      (s.writeRoster n e (s.presenceEntry e a)).rosterOf k := fun k =>
    State.rosterOf_congr (by unfold State.presenceWritten; rw [State.collect_frame])
      (by unfold State.presenceWritten; rw [State.collect_frame]) k
  refine ⟨?_, fun k hk => ?_⟩
  · rw [hcollect, State.rosterOf_writeRoster_same he, hl, RosterEntry.asListed_listed]
  · rw [hcollect, State.rosterOf_writeRoster_other (State.rosterOf_some he).1 hk]

theorem State.presenceWritten_offsets (he : s.rosterOf n = some e) (hl : stationPresent s.tables n = true) :
    (a.checksum = s.scs.checksum → s.active = true → (s.presenceWritten n e a offset).prt.offsets =
      (s.prt.offsets.filter fun o => decide (o.station ≠ n)) ++
        [{ station := n, offset := offset, lock := a.lock }]) ∧
    (a.checksum ≠ s.scs.checksum ∨ s.active = false →
      (s.presenceWritten n e a offset).prt.offsets = s.prt.offsets) := by
  have hwritten : (s.writeRoster n e (s.presenceEntry e a)).rosterState n = some (s.presenceEntry e a).state := by
    refine State.rosterState_some ?_
    rw [State.rosterOf_writeRoster_same he, hl, RosterEntry.asListed_listed]
  have hactive : (s.writeRoster n e (s.presenceEntry e a)).active = s.active := by
    rw [State.writeRoster_eq]
    rfl
  have hoffsets : (s.writeRoster n e (s.presenceEntry e a)).prt.offsets = s.prt.offsets := by
    rw [State.writeRoster_eq]
    rfl
  refine ⟨fun hc ha => ?_, fun hno => ?_⟩
  · have hpresent : (s.presenceEntry e a).state = .present := if_pos hc
    unfold State.presenceWritten
    rw [State.collect_taken (hactive.trans ha) (hwritten.trans (congrArg some hpresent)), ← hoffsets]
  · unfold State.presenceWritten
    rw [State.collect_ignored, hoffsets]
    refine hno.imp (fun hc => ?_) hactive.trans
    rw [hwritten, show (s.presenceEntry e a).state = .mismatch from if_neg hc]
    exact nofun

end

/-! #### The frame of a PRESENCE -/

theorem State.framePassed_rosterOf {s : State} {n : Nat} {e : RosterEntry} (he : s.rosterOf n = some e)
    (hself : e.state ≠ .self) (hl : stationPresent s.tables n = true) : (s.framePassed n).rosterOf n = some { e with
      state := if e.state = .mismatch then .mismatch else .present
      lastHeard := s.prt.time, deadline := some (s.prt.time + 24000) } :=
  State.heard_rosterOf (s := s.frameRead.advanceRotation) he hself hl

theorem State.dispatch_presence (s : State) {sender : Nat} {stamp : Time} {a : Announced} (hs : sender ≤ 32)
    (ha : AnnouncedInRange a) (arrival : Time) :
    s.dispatch .presence (frameBytes .presence sender stamp (announcedBytes a)) arrival =
      s.takePresence sender a stamp arrival := by
  unfold State.dispatch
  simp only
  rw [readPresence_frame ha, frameBytes_sender hs, frameBytes_stamp]

/-- R160, R161: the frame of a PRESENCE of a listed peer. -/
theorem presenceFrame_taken {s : State} {r : RxFrame} {brought : List Byte} {sender : Nat} {stamp : Time}
    {a : Announced} (harr : FrameArrives s r brought (frameBytes .presence sender stamp (announcedBytes a)))
    (hroster : RosterOk s) (hl : stationPresent s.tables sender = true) (hown : sender ≠ s.scs.own)
    (ha : AnnouncedInRange a) : ∃ e, (s.framePassed sender).rosterOf sender = some e ∧
      e.lastHeard = s.prt.time ∧ e.deadline = some (s.prt.time + 24000) ∧
      exec (.frameReceived brought) s = .next
        (((s.framePassed sender).presenceWritten sender e a (timeDiff stamp r.arrival)).takePairs sender a.pairs) := by
  have hs := (stationPresent_range hl).2
  have hlen : (announcedBytes a).length < 249 := by
    rw [announcedBytes_length]
    have := ha.2.2.2.1
    omega
  obtain ⟨e, he, hself⟩ := hroster.entry hl
  have hpassed := State.framePassed_rosterOf he (fun h => hown (hself.1 h)) hl
  refine ⟨_, hpassed, rfl, rfl, ?_⟩
  have hform : formOk .presence (frameBytes .presence sender stamp (announcedBytes a)) = true :=
    (presenceFrameReads sender stamp a (stationPresent_range hl).1 hs ha).2.2.1
  rw [exec_frame_dispatched hlen hs hform harr hl hown (.inl rfl), State.dispatch_presence _ hs ha]
  refine congrArg _ (State.takePresence_eq hpassed ?_ a stamp r.arrival)
  simp only
  split <;> exact nofun

/-- Settles O52: the entry written, the offset collected, then the zone list pair by pair. -/
theorem presenceTaken : Obligations.PresenceTaken := by
  intro s r brought sender stamp a harr hroster hl hown ha
  obtain ⟨e, he, hheard, hdeadline, hexec⟩ := presenceFrame_taken harr hroster hl hown ha
  obtain ⟨hzev, htracks, hnq, hqlc, htables, hscs, htime⟩ := s.framePassed_fields sender
  have hl' : stationPresent (s.framePassed sender).tables sender = true := htables ▸ hl
  generalize hw : (s.framePassed sender).presenceWritten sender e a (timeDiff stamp r.arrival) = w at hexec
  obtain ⟨hentry, hother⟩ := State.presenceWritten_rosterOf (a := a) (offset := timeDiff stamp r.arrival) he hl'
  obtain ⟨hcollected, hkept⟩ := State.presenceWritten_offsets (a := a) (offset := timeDiff stamp r.arrival) he hl'
  obtain ⟨roster, offsets, raised, hframe⟩ :=
    State.presenceWritten_frame (s := s.framePassed sender) (n := sender) (e := e) (a := a)
      (offset := timeDiff stamp r.arrival)
  rw [hw] at hentry hother hcollected hkept hframe
  have honly := w.takePairs_only sender a.pairs
  have hactive : w.active = s.active := by
    rw [hframe]
    exact (congrArg (fun c : Scs => decide (c.station = .joining ∨ c.station = .operating)) hscs : _)
  have hwtables : w.tables = s.tables := by
    rw [hframe]
    exact htables
  have hwzev : w.zev = s.zev := by
    rw [hframe]
    exact hzev
  have hprt : (s.framePassed sender).prt = { s.prt with roster := (s.framePassed sender).prt.roster } := by
    rw [s.framePassed_eq]
  have hwprt : w.prt = { s.prt with roster := w.prt.roster, offsets := w.prt.offsets } := by
    rw [hframe]
    simp only
    rw [hprt]
  have hoffsetsKept : (s.framePassed sender).prt.offsets = s.prt.offsets := by rw [hprt]
  have hpassedActive : (s.framePassed sender).active = s.active :=
    congrArg (fun c : Scs => decide (c.station = .joining ∨ c.station = .operating)) hscs
  have hstate : w.rosterState sender = some (if a.checksum = s.scs.checksum then .present else .mismatch) := by
    rw [State.rosterState_some hentry]
    unfold State.presenceEntry
    rw [hscs]
  have hignored : a.checksum ≠ s.scs.checksum ∨ s.active = false → w.takePairs sender a.pairs = w := fun h => by
    refine State.takePairs_ignored (h.imp (fun hc => ?_) hactive.trans) _
    rw [hstate, if_neg hc]
    exact nofun
  have hrosterOf : ∀ k, (w.takePairs sender a.pairs).rosterOf k = w.rosterOf k :=
    State.rosterOf_congr (congrArg Prt.roster honly.prt) honly.tables
  refine ⟨_, hexec, ?_, fun n hn => ?_, ?_, fun hc hact => ?_, fun hno => ?_, ?_, ?_, ?_, ?_, ?_, fun hno => ?_,
    fun z hz => ?_, fun hc hact hnodup p hp old hd howner hold => ?_⟩
  · rw [hrosterOf, hentry]
    unfold State.presenceEntry
    rw [hheard, hdeadline, hscs]
  · rw [hrosterOf, hother n hn, s.framePassed_rosterOf_other hn]
  · rw [honly.prt]
    exact hwprt
  · rw [honly.prt, hcollected (by rw [hscs]; exact hc) (hpassedActive.trans hact), hoffsetsKept]
    rfl
  · rw [honly.prt, hkept (by rw [hscs, hpassedActive]; exact hno), hoffsetsKept]
  · rw [honly, hframe]
    exact htracks
  · rw [honly, hframe]
    exact hnq
  · rw [honly, hframe]
    exact hscs
  · rw [honly, ← hwzev]
  · rw [honly, hframe]
    exact hqlc
  · rw [hignored hno, hwzev]
  · rw [State.takePairs_receivedOf_unnamed (by rw [hwtables]; exact hz)]
    unfold State.receivedOf
    rw [hwzev]
  · have hwold : w.receivedOf p.zone = some old := by
      rw [← hold]
      unfold State.receivedOf
      rw [hwzev]
    obtain ⟨hrec, hraise⟩ := State.takePairs_reports (hstate.trans (by rw [if_pos hc])) (hactive.trans hact) hnodup hp
      (by rw [hwtables]; exact hd) (by rw [hwtables]; exact howner) hwold
    refine ⟨hrec.trans ?_, hraise⟩
    unfold State.reportOf
    rw [hwprt]

end Sys2Proof.Machine

/-! ### A holdoff runs out (R129, R153, O50) -/

namespace Sys2Proof.Machine

theorem State.startSending_nq (s : State) (e : Entry) : (s.startSending e).nq = { s.nq with
    entries := s.nq.entries.map fun x => if x.key = e.key then { x with inFlight := true } else x } := by
  unfold State.startSending State.changeEntry
  rw [State.mapQlc_nq, State.setEntries_eq, State.mapNq_nq, State.stopHoldoff_nq]

theorem State.startSending_qlc (s : State) (e : Entry) : (s.startSending e).qlc = { s.qlc with
    busy := true, holdoff := none, inFlight := some e.key, qde := true, frame := s.frameOf e.notice
    ownRead := some { arrival := s.prt.time, chars := [] } } := by
  unfold State.startSending State.changeEntry
  rw [State.mapQlc_qlc, State.setEntries_eq, State.mapNq_qlc, State.stopHoldoff_qlc]
  rfl

theorem State.holdoffExpiry_idle {s : State} (h : s.qlc.holdoff = none) (quiet : Nat) :
    s.holdoffExpiry quiet = s := by
  unfold State.holdoffExpiry
  rw [h]

/-- Settles O50: the selected entry starts, its frame that of the state as it stands. -/
theorem holdoffRunsOut : Obligations.HoldoffRunsOut := by
  intro s quiet hrst
  refine ⟨fun h e hh hl hq he => ?_, fun hnone => ?_⟩
  · obtain ⟨u, hu⟩ : ∃ u, u = s.takeEvent isHoldoffExpiry := ⟨_, rfl⟩
    have huh : u.qlc.holdoff = some h := hu ▸ hh
    have hue : u.entryOf h.selected = some e := hu ▸ he
    have hkey := State.entryOf_key he
    have hstart := State.holdoffExpiry_starts huh hue hl hq
    have honly : OnlyPosts s (u.holdoffExpiry quiet) := by
      rw [hstart, hu]
      exact ((OnlyPosts.takeEvent s _).trans (OnlyPosts.mapQlc _ _)).trans (State.startSending_only _ _)
    have hframe : (u.holdoffExpiry quiet).qlc.frame = s.frameOf e.notice := by
      rw [State.holdoffExpiry_frame huh hue hl hq, hu, (OnlyPosts.takeEvent s _).frameOf]
    have hnq := congrArg State.nq hstart
    have hqlc := congrArg State.qlc hstart
    rw [State.startSending_nq, hkey] at hnq
    rw [State.startSending_qlc, hkey] at hqlc
    refine ⟨_, hu ▸ exec_holdoffExpiry hrst quiet, honly, hnq.trans (by rw [hu]; rfl), by rw [hqlc], by rw [hqlc],
      by rw [hqlc], by rw [hqlc], by rw [hqlc, hu]; rfl, fun p hp => ?_, fun z l hz => ?_, fun hp => ?_⟩
    · rw [hframe, hp]
      rfl
    · rw [hframe, hz]
      rfl
    · rw [hframe, hp]
      exact ⟨s.presencePayload, rfl, rfl, rfl, rfl, rfl, rfl, rfl, rfl, rfl⟩
  · rw [exec_holdoffExpiry hrst, State.holdoffExpiry_idle (s := s.takeEvent isHoldoffExpiry) hnone]
    exact ⟨_, rfl⟩

end Sys2Proof.Machine

/-! ### QLC's following and the line's commands (R122–R128, R134, O49) -/

namespace Sys2Proof.Machine

/-! #### Following the queue (R124, R125, R128) -/

theorem isSelected_iff {s : State} {e : Entry} : IsSelected s e ↔ s.selection = some e := by
  unfold IsSelected State.selection
  rw [List.find?_eq_some_iff_append]
  simp only [Bool.and_eq_true, Bool.not_eq_true', Bool.not_and, Bool.not_not, Bool.or_eq_true, and_assoc]

theorem selection_none_of_not_selected {s : State} (h : ∀ e, ¬IsSelected s e) : s.selection = none :=
  Option.eq_none_iff_forall_not_mem.2 fun e he => h e (isSelected_iff.2 he)

theorem isHoldoffExpiry_iff {e : Instr} : isHoldoffExpiry e = true ↔ ∃ q, e = .holdoffExpiry q := by
  cases e <;> simp [isHoldoffExpiry]

/-- R128: once checked, the running out of the holdoff waits exactly when it is due. -/
theorem State.expiryCheck_waits (s : State) :
    (∃ q, .holdoffExpiry q ∈ s.expiryCheck.raised) ↔ s.expiryDue = true := by
  unfold State.expiryCheck
  split
  · next hdue =>
    refine iff_of_true ?_ hdue
    split
    · next hany =>
      obtain ⟨e, he, hexp⟩ := List.any_eq_true.1 hany
      obtain ⟨q, rfl⟩ := isHoldoffExpiry_iff.1 hexp
      exact ⟨q, he⟩
    · exact ⟨_, List.mem_append_right _ (List.mem_singleton.2 rfl)⟩
  · next hdue =>
    refine iff_of_false ?_ hdue
    rintro ⟨q, hq⟩
    have := (List.mem_filter.1 hq).2
    simp [isHoldoffExpiry] at this

section
variable {s : State} {h : Holdoff} {e : Entry}

theorem State.follow_reselects (hh : s.qlc.holdoff = some h) (he : s.selection = some e) :
    s.follow = s.reselect h e := by
  unfold State.follow
  rw [hh, he]

theorem State.follow_stops (hh : s.qlc.holdoff = some h) (he : s.selection = none) : s.follow = s.stopHoldoff := by
  unfold State.follow
  rw [hh, he]

theorem State.follow_begins (hh : s.qlc.holdoff = none) (hb : s.qlc.busy = false) (he : s.selection = some e) :
    s.follow = s.beginHoldoff e := by
  unfold State.follow
  rw [hh, he]
  simp only [hb, Bool.false_eq_true, if_false]

theorem State.follow_rests (hh : s.qlc.holdoff = none) (hno : s.qlc.busy = true ∨ s.selection = none) :
    s.follow = s := by
  obtain hb | he := hno
  · exact State.follow_busy hb hh
  · unfold State.follow
    rw [hh, he]

theorem State.reselect_qlc : (s.reselect h e).qlc = { s.qlc with
    holdoff := some
      { selected := e.key, length := holdoffOf s.scs.own h.rotation s.qlc.drawn e, rotation := h.rotation } } := by
  unfold State.reselect
  rw [State.expiryCheck_qlc]
  rfl

/-- R125, R126: the line record once a holdoff has begun for the entry `e`. -/
theorem State.beginHoldoff_qlc : (s.beginHoldoff e).qlc = { s.qlc with
    seqReg := seqAdvance s.qlc.seqReg, drawn := (seqAdvance s.qlc.seqReg).toNat % 8
    holdoff := some
      { selected := e.key
        length := holdoffOf s.scs.own s.qlc.rotation ((seqAdvance s.qlc.seqReg).toNat % 8) e
        rotation := s.qlc.rotation } } := by
  unfold State.beginHoldoff
  rw [State.expiryCheck_qlc]
  rfl

theorem State.follow_begins_qlc (hh : s.qlc.holdoff = none) (hb : s.qlc.busy = false) (he : s.selection = some e) :
    s.follow.qlc.seqReg = seqAdvance s.qlc.seqReg ∧
    s.follow.qlc.drawn = (seqAdvance s.qlc.seqReg).toNat % 8 ∧
    s.follow.qlc.holdoff = some
      { selected := e.key
        length := holdoffOf s.scs.own s.qlc.rotation ((seqAdvance s.qlc.seqReg).toNat % 8) e
        rotation := s.qlc.rotation } := by
  rw [State.follow_begins hh hb he, State.beginHoldoff_qlc]
  exact ⟨rfl, rfl, rfl⟩

end

theorem State.follow_waits {s : State} {h : Holdoff} (hh : s.follow.qlc.holdoff = some h) :
    (∃ q, .holdoffExpiry q ∈ s.follow.raised) ↔ h.length ≤ s.follow.qlc.quiet := by
  obtain ⟨u, hu⟩ : ∃ u : State, s.follow = u.expiryCheck := by
    cases hs : s.qlc.holdoff with
    | some h0 =>
      cases he : s.selection with
      | some e => exact ⟨_, State.follow_reselects hs he⟩
      | none => exact ⟨_, State.follow_stops hs he⟩
    | none =>
      have hno : ¬(s.qlc.busy = true ∨ s.selection = none) := fun hno => by
        rw [State.follow_rests hs hno, hs] at hh
        exact nomatch hh
      obtain ⟨hb, he⟩ := not_or.1 hno
      obtain ⟨e, he⟩ := Option.ne_none_iff_exists'.1 he
      exact ⟨_, State.follow_begins hs (Bool.not_eq_true _ ▸ hb) he⟩
  rw [hu, State.expiryCheck_waits, Qlc.expiryDue_iff, State.expiryCheck_qlc]
  rw [hu, State.expiryCheck_qlc] at hh
  rw [hh]
  simp

/-- R125, R128: QLC's following, as its outcome is stated. -/
theorem State.follow_followed (s : State) : QueueFollowed s s.follow := by
  refine ⟨s.follow_frame, fun h hh => ?_, fun hh hb e he => ?_, fun hh hno => ?_, fun h hh => State.follow_waits hh⟩
  · cases he : s.selection with
    | some e =>
      rw [State.follow_reselects hh he, State.reselect_qlc]
      refine ⟨rfl, rfl, fun x hx => ?_, fun hno => absurd (isSelected_iff.2 he) (hno e)⟩
      rw [Option.some.inj (he.symm.trans (isSelected_iff.1 hx))]
    | none =>
      rw [State.follow_stops hh he, State.stopHoldoff_qlc]
      refine ⟨rfl, rfl, fun x hx => ?_, fun _ => rfl⟩
      exact nomatch he.symm.trans (isSelected_iff.1 hx)
  · obtain ⟨hreg, hdrawn, hhold⟩ := State.follow_begins_qlc hh hb (isSelected_iff.1 he)
    exact ⟨hreg, hdrawn, hdrawn ▸ hhold⟩
  · exact State.follow_rests hh (hno.imp_right selection_none_of_not_selected)

/-! #### The schedule point and CLEAR_FAULTS -/

theorem State.takePost_frame (s : State) (e : Entry) : s.takePost e = { s with nq := (s.takePost e).nq } := by
  unfold State.takePost
  split
  · rfl
  · split
    · unfold State.place
      split
      · rfl
      · split
        · rfl
        · split <;> rfl
    · split <;> rfl

theorem State.post_eq_follow (s : State) (cls : Nat) (n : Notice) :
    s.post cls n = State.follow { s with nq := (s.post cls n).nq } := by
  unfold State.post
  rw [State.follow_nq]
  exact congrArg State.follow (State.takePost_frame (s.mapNq _) _)

/-! #### The line (R122, R127) -/

section
variable {s : State}

theorem exec_lineBusy (h : s.pins.rstLow = false) : exec .lineBusy s = .next s.lineBusy :=
  congrArg _ (State.unlessHeld_high h _)

theorem exec_lineIdle (h : s.pins.rstLow = false) : exec .lineIdle s = .next (s.takeEvent isLineIdle).lineIdle :=
  congrArg _ (State.unlessHeld_high (s := s.takeEvent isLineIdle) h _)

theorem State.lineBusy_idle (h : s.qlc.busy = false) : s.lineBusy = { s with
    qlc := { s.qlc with
      busy := true, holdoff := none, idleIn := 125, rx := some { arrival := s.prt.time, chars := [] } }
    raised := s.stopHoldoff.raised } := by
  have hstop : s.stopHoldoff = { s with qlc := { s.qlc with holdoff := none }, raised := s.stopHoldoff.raised } := by
    have honly := s.stopHoldoff_only
    unfold OnlyPosts at honly
    rw [s.stopHoldoff_nq, s.stopHoldoff_qlc] at honly
    exact honly
  unfold State.lineBusy
  rw [h]
  simp only [Bool.false_eq_true, if_false]
  rw [hstop]
  rfl

theorem State.lineIdle_ignored (h : s.qlc.busy = false ∨ s.qlc.inFlight.isSome = true) : s.lineIdle = s := by
  unfold State.lineIdle
  refine if_neg ?_
  obtain h | h := h
  · simp [h]
  · simp [Option.isNone_eq_false_iff.2 h]

theorem State.stopHoldoff_rest (h : s.qlc.holdoff = none) : s.stopHoldoff =
    { s with raised := s.stopHoldoff.raised } := by
  have honly := s.stopHoldoff_only
  unfold OnlyPosts at honly
  rw [s.stopHoldoff_nq, s.stopHoldoff_qlc, ← h] at honly
  exact honly

/-- R123, R136: a frame that its record does not hold whole is rejected with BAD_CHECK. -/
theorem frameChars_open {chars : List Byte} (h : frameWhole chars = false) :
    frameChars chars = chars ∧ ¬CrcRight chars := by
  have hopen := of_decide_eq_false h
  refine ⟨List.take_of_length_le ?_, fun hcrc => hopen ⟨?_, hcrc.2.1.ge⟩⟩
  · by_contra hlt
    refine hopen ⟨?_, by omega⟩
    by_contra hshort
    have hzero : byteAt chars 1 = 0 := by
      unfold byteAt
      rw [List.getD_eq_default _ _ (by omega)]
      rfl
    omega
  · have hlen := hcrc.2.1
    omega

theorem State.endTruncated_unread (h : s.qlc.rx = none) :
    s.endTruncated = { s with qlc := { s.qlc with rx := none } } := by
  have hsame : s = { s with qlc := { s.qlc with rx := none } } := by rw [← h]
  unfold State.endTruncated
  rw [h]
  exact hsame

theorem State.endTruncated_open {r : RxFrame} (hr : s.qlc.rx = some r) (hopen : frameWhole r.chars = false) :
    s.endTruncated = { s with qlc := { s.qlc with
      rx := none, rejectCause := 1, rejectSender := r.chars.getD 2 0, rejectKind := r.chars.getD 0 0 } } := by
  obtain ⟨hchars, hcrc⟩ := frameChars_open hopen
  unfold State.endTruncated State.endFrame
  rw [hr]
  simp only
  rw [hchars, State.receive_unchecked hcrc]
  rfl

/-! #### The line becomes IDLE (R122, R123, R125) -/

/-- R122, R123: the state that the frame still being read leaves, the line then IDLE. -/
def State.idled (s : State) : State := s.stopHoldoff.endTruncated.mapQlc Qlc.becomeIdle

theorem State.lineIdle_taken (hb : s.qlc.busy = true) (hnone : s.qlc.inFlight = none) :
    s.lineIdle = s.idled.follow := by
  unfold State.lineIdle
  refine if_pos ?_
  simp [hb, hnone]

theorem State.idled_frame (hh : s.qlc.holdoff = none) (hopen : FramesOpen s) : ∃ cause sender kind,
    s.idled = { s with
      qlc := { s.qlc with
        busy := false, quiet := 0, quietFrac := 0, rx := none
        rejectCause := cause, rejectSender := sender, rejectKind := kind }
      raised := s.stopHoldoff.raised } ∧
    (s.qlc.rx = none → cause = s.qlc.rejectCause ∧ sender = s.qlc.rejectSender ∧ kind = s.qlc.rejectKind) ∧
    (∀ r, s.qlc.rx = some r → cause = 1 ∧ sender = r.chars.getD 2 0 ∧ kind = r.chars.getD 0 0) := by
  unfold State.idled
  rw [State.stopHoldoff_rest hh]
  cases hrx : s.qlc.rx with
  | none =>
    rw [State.endTruncated_unread (s := { s with raised := s.stopHoldoff.raised }) hrx]
    exact ⟨_, _, _, rfl, fun _ => ⟨rfl, rfl, rfl⟩, nofun⟩
  | some r =>
    rw [State.endTruncated_open (s := { s with raised := s.stopHoldoff.raised }) hrx (hopen r (.inl hrx))]
    refine ⟨_, _, _, rfl, nofun, fun r' hr => ?_⟩
    obtain rfl := Option.some.inj hr
    exact ⟨rfl, rfl, rfl⟩

/-- R124, R144: with nothing in flight the most urgent eligible entry is the selected one. -/
theorem isSelected_of_urgent (hidle : ∀ x ∈ s.nq.entries, x.inFlight = false) {e : Entry} (he : e ∈ s.nq.entries)
    (hel : s.eligible e.notice = true) (h : (∃ before after, s.nq.entries = before ++ e :: after ∧
        ∀ x ∈ before, s.eligible x.notice = false) ∨
      (InUrgencyOrder s.nq.entries ∧
        ∀ x ∈ s.nq.entries, s.eligible x.notice = true → x = e ∨ e.before x = true)) : IsSelected s e := by
  refine ⟨hidle e he, hel, ?_⟩
  obtain ⟨bs, as, heq, hbs⟩ | ⟨horder, hmost⟩ := h
  · exact ⟨bs, as, heq, fun x hx => .inr (hbs x hx)⟩
  · obtain ⟨bs, as, heq⟩ := List.append_of_mem he
    refine ⟨bs, as, heq, fun x hx => .inr ?_⟩
    by_contra hx'
    have hbefore : x.before e = true := by
      unfold InUrgencyOrder at horder
      rw [heq, List.pairwise_append] at horder
      exact horder.2.2 x hx e List.mem_cons_self
    obtain rfl | hafter := hmost x (heq ▸ List.mem_append_left _ hx) (Bool.not_eq_false _ ▸ hx')
    · exact Bool.false_ne_true ((Entry.before_irrefl x).symm.trans hbefore)
    · exact Bool.false_ne_true ((Entry.before_asymm hafter).symm.trans hbefore)

/-- R122, R124, R125: what the line's IDLE leaves, its holdoff begun for the most urgent eligible notice. -/
theorem State.idled_follow_ok (hh : s.qlc.holdoff = none) (hopen : FramesOpen s)
    (hidle : ∀ x ∈ s.nq.entries, x.inFlight = false) :
    let t := s.idled.follow
    t = { s with
      qlc := { s.qlc with
        busy := false, quiet := 0, quietFrac := 0, rx := none
        holdoff := t.qlc.holdoff, seqReg := t.qlc.seqReg, drawn := t.qlc.drawn
        rejectCause := t.qlc.rejectCause, rejectSender := t.qlc.rejectSender
        rejectKind := t.qlc.rejectKind }
      raised := t.raised } ∧
    (s.qlc.rx = none → t.qlc.rejectCause = s.qlc.rejectCause ∧
      t.qlc.rejectSender = s.qlc.rejectSender ∧ t.qlc.rejectKind = s.qlc.rejectKind) ∧
    (∀ r, s.qlc.rx = some r → t.qlc.rejectCause = 1 ∧
      t.qlc.rejectSender = r.chars.getD 2 0 ∧ t.qlc.rejectKind = r.chars.getD 0 0) ∧
    (∀ e ∈ s.nq.entries, s.eligible e.notice = true →
      ((∃ before after, s.nq.entries = before ++ e :: after ∧
          ∀ x ∈ before, s.eligible x.notice = false) ∨
        (InUrgencyOrder s.nq.entries ∧
          ∀ x ∈ s.nq.entries, s.eligible x.notice = true → x = e ∨ e.before x = true)) →
      t.qlc.seqReg = seqAdvance s.qlc.seqReg ∧
      t.qlc.drawn = (seqAdvance s.qlc.seqReg).toNat % 8 ∧
      t.qlc.holdoff = some
        { selected := e.key
          length := 40 * e.cls + ((s.scs.own - 1 + s.qlc.rotation) % 32 + 1) +
            e.attempts * ((seqAdvance s.qlc.seqReg).toNat % 8)
          rotation := s.qlc.rotation }) ∧
    ((∀ e ∈ s.nq.entries, s.eligible e.notice = false) → t.qlc.holdoff = none ∧ t.qlc.seqReg = s.qlc.seqReg) := by
  obtain ⟨cause, sender, kind, hframe, hkept, hrejected⟩ := State.idled_frame hh hopen
  generalize hv : s.idled = v at hframe
  clear hv
  subst hframe
  intro t
  have hfollow : t = _ := State.follow_frame _
  have hrejects : t.qlc.rejectCause = cause ∧ t.qlc.rejectSender = sender ∧ t.qlc.rejectKind = kind := by
    rw [hfollow]
    exact ⟨rfl, rfl, rfl⟩
  obtain ⟨hcause, hsender, hkind⟩ := hrejects
  rw [hcause, hsender, hkind]
  refine ⟨hfollow, hkept, hrejected, fun e he hel hfirst => ?_, fun hno => ?_⟩
  · have hsel := isSelected_iff.1 (isSelected_of_urgent hidle he hel hfirst)
    exact State.follow_begins_qlc hh rfl hsel
  · have hrests : t = _ := State.follow_rests hh (.inr (selection_none_of_not_selected fun e he => ?_))
    · rw [hrests]
      exact ⟨hh, rfl⟩
    · obtain ⟨-, hel, bs, as, heq, -⟩ := he
      have hmem : e ∈ s.nq.entries := by
        rw [show s.nq.entries = bs ++ e :: as from heq]
        exact List.mem_append_right _ List.mem_cons_self
      exact Bool.false_ne_true ((hno e hmem).symm.trans hel)

end

/-! #### The commands together -/

theorem exec_frameReceived_partial {s : State} (hrst : s.pins.rstLow = false) (brought : List Byte) :
    (s.qlc.rx = none → exec (.frameReceived brought) s = .next s) ∧
    (∀ r, s.qlc.rx = some r → frameWhole (r.chars ++ brought) = false → exec (.frameReceived brought) s =
      if brought = [] then .next s
      else .next { s with
        qlc := { s.qlc with idleIn := 100, rx := some { r with chars := r.chars ++ brought } }
        raised := s.raisedAfter }) := by
  rw [exec_frameReceived hrst]
  unfold State.frameReceived
  refine ⟨fun hrx => by rw [hrx], fun r hrx hopen => ?_⟩
  rw [hrx]
  simp only
  unfold State.readChars
  simp only
  rw [hopen]
  simp only [Bool.false_eq_true, if_false, List.isEmpty_iff]
  by_cases hb : brought = []
  · rw [if_pos hb, if_pos hb]
  · rw [if_neg hb, if_neg hb, ← s.dropLineIdle]
    rfl

/-- R122, R123, R125: the line's IDLE with nothing in flight. -/
theorem exec_lineIdle_taken {s : State} (hrst : s.pins.rstLow = false) (hinv : QueueInv s)
    (hb : s.qlc.busy = true) (hnone : s.qlc.inFlight = none) :
    exec .lineIdle s = .next (s.takeEvent isLineIdle).idled.follow ∧ s.qlc.holdoff = none ∧
    ∀ x ∈ s.nq.entries, x.inFlight = false := by
  obtain ⟨-, -, ⟨hflight, -, -⟩, ⟨hholdoff, -, -⟩, -⟩ := hinv
  refine ⟨?_, ?_, fun x hx => ?_⟩
  · rw [exec_lineIdle hrst, State.lineIdle_taken (s := s.takeEvent isLineIdle) hb hnone]
  · refine Option.not_isSome_iff_eq_none.1 fun h => ?_
    exact Bool.false_ne_true ((hholdoff h).symm.trans hb)
  · refine Bool.eq_false_iff.2 fun h => ?_
    exact nomatch hnone.symm.trans ((hflight x hx).1 h)

/-- Settles O49: each command of the line by its own rule. -/
theorem lineAccess : Obligations.LineAccess := by
  intro s hrst hinv
  refine ⟨fun hb => ⟨_, (exec_lineBusy hrst).trans (congrArg _ (State.lineBusy_idle hb))⟩, fun hb => ?_,
    fun h => ?_, fun hb hnone hopen => ?_, exec_frameReceived_partial hrst, s.follow_followed,
    fun ha => ?_, fun hp hclear hprog => ?_⟩
  · rw [exec_lineBusy hrst]
    exact congrArg _ (if_pos hb)
  · rw [exec_lineIdle hrst, State.lineIdle_ignored (s := s.takeEvent isLineIdle) h]
    rfl
  · obtain ⟨hexec, hh, hidle⟩ := exec_lineIdle_taken hrst hinv hb hnone
    exact ⟨_, hexec, State.idled_follow_ok (s := s.takeEvent isLineIdle) hh hopen hidle⟩
  · refine ⟨_, exec_schedulePoint hrst, ?_⟩
    rw [State.schedulePoint_active (s := s.takeEvent _) ha]
    exact State.post_eq_follow (s.takeEvent _) 4 .presence
  · refine ⟨_, exec_clearFaults hp hclear hprog, ?_⟩
    rw [(State.follow_only _).scs]

end Sys2Proof.Machine

/-! ### Held posts and the queue without an entry in flight (R130, R131, R149, R154, R155) -/

namespace Sys2Proof.Machine

/-! #### Entries placed and found -/

theorem find_insertEntry_other {p : Entry → Bool} {e : Entry} (hp : p e = false) (es : List Entry) :
    (insertEntry e es).find? p = es.find? p := by
  induction es with
  | nil => simp [insertEntry, hp]
  | cons x xs ih =>
    unfold insertEntry
    split
    · rw [List.find?_cons, hp]
    · rw [List.find?_cons, List.find?_cons, ih]

/-- R144, R149: an entry placed among others of other keys. -/
theorem State.entryOf_inserted {s : State} {e : Entry} {es : List Entry} (hs : s.nq.entries = insertEntry e es)
    (hk : ∀ x ∈ es, x.key ≠ e.key) : (∀ x, x.key ≠ e.key → (x ∈ s.nq.entries ↔ x ∈ es)) ∧
      s.entryOf e.key = some e := by
  refine ⟨fun x hx => ?_, State.entryOf_of_unique (by rw [hs]; exact mem_insertEntry.2 (.inl rfl)) fun x hx hxk => ?_⟩
  · rw [hs, mem_insertEntry]
    exact or_iff_right fun h => hx (congrArg Entry.key h)
  · rw [hs, mem_insertEntry] at hx
    exact hx.resolve_right fun h => hk x h hxk

theorem State.redundant_iff {s : State} {n : Notice} :
    s.redundant n = true ↔ ∃ z l, n = .zone z l ∧ s.announced z = some l := by
  cases n <;> simp [State.redundant]

theorem State.redundant_false {s : State} {n : Notice} (h : ∀ z l, n = .zone z l → s.announced z ≠ some l) :
    s.redundant n = false := by
  refine Bool.eq_false_iff.2 fun hr => ?_
  obtain ⟨z, l, hn, ha⟩ := State.redundant_iff.1 hr
  exact h z l hn ha

/-! #### Held posts released (R149) -/

section
variable {s : State} {h : Entry}

theorem State.releaseHeld_frame (s : State) : s.releaseHeld = { s with nq := s.releaseHeld.nq } := by
  unfold State.releaseHeld
  split
  · rfl
  · exact State.takePost_frame (s.mapNq _) _

theorem State.releaseAfterSuccess_frame (s : State) :
    s.releaseAfterSuccess = { s with nq := s.releaseAfterSuccess.nq } := by
  unfold State.releaseAfterSuccess
  split
  · rfl
  · split
    · rfl
    · exact s.releaseHeld_frame

theorem State.releaseHeld_none (hh : s.nq.held = none) : s.releaseHeld = s := by
  unfold State.releaseHeld
  rw [hh]

theorem State.releaseHeld_some (hh : s.nq.held = some h) :
    s.releaseHeld = (s.mapNq fun q => { q with held := none }).takePost h := by
  unfold State.releaseHeld
  rw [hh]

/-- R149: with nothing in flight a post taken is not held. -/
theorem State.takePost_held (hw : ∀ x ∈ s.nq.entries, x.inFlight = false) (e : Entry) :
    (s.takePost e).nq.held = s.nq.held := by
  unfold State.takePost
  split
  · rfl
  · split
    · unfold State.place
      split
      · rfl
      · split
        · rfl
        · split <;> rfl
    · next x hx =>
      rw [hw x (State.entryOf_mem hx)]
      rfl

theorem State.releaseHeld_held (hw : ∀ x ∈ s.nq.entries, x.inFlight = false) : s.releaseHeld.nq.held = none := by
  cases hh : s.nq.held with
  | none =>
    rw [State.releaseHeld_none hh]
    exact hh
  | some h =>
    rw [State.releaseHeld_some hh]
    exact State.takePost_held (s := s.mapNq fun q => { q with held := none }) hw h

/-- R149: a held post whose key no entry holds is placed anew. -/
theorem State.releaseHeld_new (hh : s.nq.held = some h) (hd : s.dropsPost h.notice = false)
    (hk : ∀ x ∈ s.nq.entries, x.key ≠ h.key) (hroom : s.nq.entries.length < Config.queueSize) :
    s.releaseHeld.nq.entries = insertEntry h s.nq.entries := by
  have hnone : s.entryOf h.key = none := State.entryOf_none.2 hk
  rw [State.releaseHeld_some hh, State.takePost_of_none (s := s.mapNq fun q => { q with held := none }) hd hnone,
    State.place_of_room (s := s.mapNq fun q => { q with held := none }) hroom]
  rfl

theorem State.releaseAfterSuccess_none (hh : s.nq.held = none) : s.releaseAfterSuccess = s := by
  unfold State.releaseAfterSuccess
  rw [hh]

theorem State.releaseAfterSuccess_redundant (hh : s.nq.held = some h) (hr : s.redundant h.notice = true) :
    s.releaseAfterSuccess = s.mapNq fun q => { q with held := none } := by
  unfold State.releaseAfterSuccess
  rw [hh]
  exact if_pos hr

theorem State.releaseAfterSuccess_released (hh : s.nq.held = some h) (hr : s.redundant h.notice = false) :
    s.releaseAfterSuccess = s.releaseHeld := by
  unfold State.releaseAfterSuccess
  rw [hh]
  exact if_neg (Bool.eq_false_iff.1 hr)

theorem State.releaseAfterSuccess_held (hw : ∀ x ∈ s.nq.entries, x.inFlight = false) :
    s.releaseAfterSuccess.nq.held = none := by
  cases hh : s.nq.held with
  | none =>
    rw [State.releaseAfterSuccess_none hh]
    exact hh
  | some h =>
    cases hr : s.redundant h.notice with
    | true =>
      rw [State.releaseAfterSuccess_redundant hh hr]
      rfl
    | false =>
      rw [State.releaseAfterSuccess_released hh hr]
      exact State.releaseHeld_held hw

end

/-- R145–R148: the queue once a post has been folded into the waiting entry of its key. -/
theorem State.takePost_folded {s : State} {e x : Entry} (hq : QueueSound none s.qlc.inFlight s.nq)
    (hd : s.dropsPost e.notice = false) (h : s.entryOf e.key = some x) (hx : x.inFlight = false) :
    let y := foldNotice x e.notice e.cls
    (∀ a, a.key ≠ e.key → (a ∈ (s.takePost e).nq.entries ↔ a ∈ s.nq.entries)) ∧
    (s.redundant y.notice = false → (s.takePost e).entryOf e.key = some y) ∧
    (s.redundant y.notice = true → (s.takePost e).entryOf e.key = none) := by
  have hkey : x.key = e.key := State.entryOf_key h
  have hy : (foldNotice x e.notice e.cls).key = x.key := foldNotice_key hkey.symm e.cls
  have hentries := congrArg (fun t : State => t.nq.entries) (State.takePost_of_waiting hd h hx)
  obtain ⟨hother, hin, hout⟩ := hq.refolded (State.entryOf_mem h) hy _ hentries
  rw [hkey] at hother hout
  refine ⟨hother, fun hr => ?_, fun hr => State.entryOf_none.2 fun a ha hk => ?_⟩
  · rw [← hkey, ← hy]
    refine State.entryOf_of_unique (hin hr) fun a ha hk => (hout a ha ?_).2
    rw [hk, hy, hkey]
  · exact absurd hr (by simp [(hout a ha hk).1])

/-! #### The PRESENCE of a fault (R189) -/

/-- R150: a full queue takes no post of the greatest class that it holds. -/
theorem State.place_least {s : State} {e : Entry} (hfull : ¬s.nq.entries.length < Config.queueSize)
    (h : ∀ x ∈ s.nq.entries, x.cls ≤ e.cls) : s.place e = s := by
  unfold State.place
  rw [if_neg hfull]
  split
  · rfl
  · next v hv => exact if_neg (Nat.not_lt.2 (h v (lastWaiting_some hv).1))

section
variable {s : State} (hq : QueueSound none none s.nq)
include hq

theorem QueueSound.waits {x : Entry} (hx : x ∈ s.nq.entries) : x.inFlight = false :=
  Bool.eq_false_iff.2 fun hf => nomatch (hq.flight x hx).1 hf

/-- R145, R150: with nothing in flight a PRESENCE of class 4 is placed, folded or dropped. -/
theorem QueueSound.post_presence : (s.post 4 .presence).nq.entries = s.nq.entries ∨
    s.entryOf .presence = none ∧
      (s.post 4 .presence).nq.entries = insertEntry (s.postEntry 4 .presence) s.nq.entries := by
  cases hx : s.entryOf .presence with
  | some x =>
    rw [State.post_presence_waiting hq.orders hx (hq.waits (State.entryOf_mem hx))]
    exact .inl rfl
  | none =>
    by_cases hroom : s.nq.entries.length < Config.queueSize
    · exact .inr ⟨rfl, State.post_presence_new hx hroom 4⟩
    · refine .inl ?_
      rw [State.post_nq, State.takePost_of_none (State.dropsPost_presence _) hx,
        State.place_least (s := s.takeSerial) hroom fun x hx => (hq.ranges x hx).1]
      rfl

/-- R145, R150: such a PRESENCE leaves what the queue holds for the other keys, and an entry of its own. -/
theorem QueueSound.post_presence_entryOf {k : Key} (hk : k ≠ .presence ∨ s.entryOf k ≠ none) :
    (s.post 4 .presence).entryOf k = s.entryOf k := by
  obtain heq | ⟨hnone, heq⟩ := hq.post_presence
  · unfold State.entryOf
    rw [heq]
  · have hne : k ≠ .presence := hk.elim id fun hsome hpres => hsome (hpres ▸ hnone)
    unfold State.entryOf
    rw [heq]
    exact find_insertEntry_other (decide_eq_false fun h : Key.presence = k => hne h.symm) _

theorem QueueSound.post_presence_held : (s.post 4 .presence).nq.held = s.nq.held := by
  rw [State.post_nq]
  exact State.takePost_held (s := s.takeSerial) (fun x hx => hq.waits hx) _

end

/-! #### A line that the station has stopped driving (R130, R131) -/

/-- R130, R131: on a BUSY line, no holdoff running, a post changes the queue alone. -/
theorem State.post_busy {s : State} (hb : s.qlc.busy = true) (hh : s.qlc.holdoff = none) (cls : Nat) (n : Notice) :
    s.post cls n = { s with nq := (s.post cls n).nq } :=
  (s.post_eq_follow cls n).trans (State.follow_busy hb hh)

/-- R155, R187, R189: LINE_TROUBLE on a BUSY line, nothing in flight. -/
theorem State.faultEvent_lineTrouble {s : State} (hb : s.qlc.busy = true) (hh : s.qlc.holdoff = none)
    (hq : QueueSound none none s.nq) :
    (s.faultEvent .lineTrouble).qlc = s.qlc ∧ (s.faultEvent .lineTrouble).nq.held = s.nq.held ∧
    ∀ k, k ≠ .presence ∨ s.entryOf k ≠ none → (s.faultEvent .lineTrouble).entryOf k = s.entryOf k := by
  have hpost : ∀ c : Scs, ((s.mapScs fun _ => c).post 4 .presence).qlc = s.qlc ∧
      ((s.mapScs fun _ => c).post 4 .presence).nq.held = s.nq.held ∧
      ∀ k, k ≠ .presence ∨ s.entryOf k ≠ none → ((s.mapScs fun _ => c).post 4 .presence).entryOf k = s.entryOf k :=
    fun c => ⟨by rw [State.post_busy (s := s.mapScs fun _ => c) hb hh]; rfl,
      QueueSound.post_presence_held (s := s.mapScs fun _ => c) hq,
      fun k hk => QueueSound.post_presence_entryOf (s := s.mapScs fun _ => c) hq hk⟩
  unfold State.faultEvent
  simp only [reduceCtorEq, if_false]
  split
  · exact ⟨rfl, rfl, fun _ _ => rfl⟩
  · split
    · exact hpost _
    · exact ⟨rfl, rfl, fun _ _ => rfl⟩

end Sys2Proof.Machine

/-! ### Transmissions end (R119, R130, R131, R133, R149, R154, R155, O51) -/

namespace Sys2Proof.Machine

/-! #### Success (R119, R130, R154) -/

/-- R130, R154: the state once the entry `e` of key `k` has been sent in full, before the held post's release. -/
def State.sentInFull (s : State) (k : Key) (e : Entry) : State := (s.stopDriving.setAnnounced e.notice).removeEntry k

section
variable {s : State} {k : Key} {e : Entry}

theorem QueueGood.sending (h : QueueGood none s) (hk : s.qlc.inFlight = some k) :
    s.qlc.busy = true ∧ s.qlc.holdoff = none := by
  have hb := h.2.sending (by rw [hk]; rfl)
  refine ⟨hb, Option.not_isSome_iff_eq_none.1 fun hh => ?_⟩
  exact Bool.false_ne_true ((h.2.holdoff hh).symm.trans hb)

theorem State.setAnnounced_frame (s : State) (n : Notice) : s.setAnnounced n =
    { s with zev := { s.zev with zones := (s.setAnnounced n).zev.zones } } := by
  unfold State.setAnnounced
  split <;> rfl

theorem State.setAnnounced_zone {n : Notice} {z : Nat} {l : Level} (h : n = .zone z l) :
    (s.setAnnounced n).zev.zones = s.zev.zones.map fun x => if x.zone = z then { x with announced := l } else x := by
  rw [h]
  rfl

theorem State.setAnnounced_other {n : Notice} (h : ∀ z, n.key ≠ .zone z) : s.setAnnounced n = s := by
  cases n with
  | presence => rfl
  | sighting p => rfl
  | zone z l => exact absurd rfl (h z)

theorem State.sentInFull_frame : s.sentInFull k e = { s with
    zev := { s.zev with zones := (s.setAnnounced e.notice).zev.zones }
    nq := { s.nq with entries := s.nq.entries.filter fun x => decide (x.key ≠ k) }
    qlc := s.stopDriving.qlc } := by
  have hzones : (s.stopDriving.setAnnounced e.notice).zev.zones = (s.setAnnounced e.notice).zev.zones := by
    cases e.notice <;> rfl
  unfold State.sentInFull State.removeEntry
  rw [State.setAnnounced_frame, hzones]
  rfl

theorem State.stopDriving_sending (hk : s.qlc.inFlight = some k) : s.stopDriving.qlc = { s.qlc with
    idleIn := 100, qde := false, inFlight := none, frame := [], ownRead := none } := by
  rw [State.stopDriving_eq, State.mapQlc_qlc]
  unfold Qlc.idleAfterDriving
  rw [hk]
  rfl

theorem State.transmitSuccess_taken (hgood : QueueGood none s) (hk : s.qlc.inFlight = some k)
    (he : s.entryOf k = some e) : s.transmitSuccess = (s.sentInFull k e).releaseAfterSuccess.advanceRotation := by
  obtain ⟨hb, hh⟩ := hgood.sending hk
  have hqlc : (s.sentInFull k e).releaseAfterSuccess.qlc = s.stopDriving.qlc := by
    rw [State.releaseAfterSuccess_frame, State.sentInFull_frame]
  unfold State.transmitSuccess
  rw [hk]
  simp only
  rw [he]
  refine State.follow_busy ?_ ?_
  · rw [State.advanceRotation_eq, State.mapQlc_qlc]
    exact (congrArg Qlc.busy hqlc).trans hb
  · rw [State.advanceRotation_eq, State.mapQlc_qlc]
    exact (congrArg Qlc.holdoff hqlc).trans hh

theorem OnlyEvaluates.frame {s t : State} (h : OnlyEvaluates s t) :
    t = { s with zev := t.zev, nq := t.nq, qlc := t.qlc, raised := t.raised } := by
  have hzev : t.zev = { s.zev with zones := t.zev.zones } := congrArg State.zev h
  unfold OnlyEvaluates at h
  rw [← hzev] at h
  exact h

/-- R143: the queue without the entry that was in flight. -/
theorem QueueGood.gone (hgood : QueueGood none s) (hk : s.qlc.inFlight = some k) (he : s.entryOf k = some e) :
    (∀ x ∈ s.nq.entries.filter fun x => decide (x.key ≠ k), x.inFlight = false ∧ x.key ≠ k) ∧
    (s.nq.entries.filter fun x => decide (x.key ≠ k)).length < Config.queueSize := by
  have hq : QueueSound none (some k) s.nq := hk ▸ hgood.1
  refine ⟨fun x hx => ?_, lt_of_lt_of_le ?_ hq.size⟩
  · obtain ⟨hx, hxk⟩ := List.mem_filter.1 hx
    have hxk := of_decide_eq_true hxk
    exact ⟨Bool.eq_false_iff.2 fun hf => hxk (Option.some.inj ((hq.flight x hx).1 hf)).symm, hxk⟩
  · refine lt_of_le_of_ne (List.length_filter_le _ _) fun heq => ?_
    have := List.length_filter_eq_length_iff.1 heq e (State.entryOf_mem he)
    exact of_decide_eq_true this (State.entryOf_key he)

theorem QueueGood.held_key (hgood : QueueGood none s) (hk : s.qlc.inFlight = some k) {h : Entry}
    (hh : s.nq.held = some h) : h.key = k :=
  (Option.some.inj (hk.symm.trans (hgood.1.held h hh).1)).symm

/-- R149, R155: the held post placed anew once the entry of its key has gone. -/
theorem releaseHeld_after_removal {v : State} (hgood : QueueGood none s) (hk : s.qlc.inFlight = some k)
    (he : s.entryOf k = some e) (hv : v.nq = { s.nq with entries := s.nq.entries.filter fun x => decide (x.key ≠ k) })
    (hscs : v.scs = s.scs) {h : Entry} (hh : s.nq.held = some h)
    (hjoin : s.scs.station = .joining → h.notice = .presence) :
    (∀ x, x.key ≠ k → (x ∈ v.releaseHeld.nq.entries ↔ x ∈ s.nq.entries)) ∧ v.releaseHeld.entryOf k = some h := by
  obtain ⟨hgone, hroom⟩ := hgood.gone hk he
  have hkey := hgood.held_key hk hh
  have hnew : v.releaseHeld.nq.entries = insertEntry h (s.nq.entries.filter fun x => decide (x.key ≠ k)) := by
    rw [State.releaseHeld_new (h := h) (by rw [hv]; exact hh) (State.dropsPost_false (by rw [hscs]; exact hjoin))
      (by rw [hv, hkey]; exact fun x hx => (hgone x hx).2) (by rw [hv]; exact hroom), hv]
  obtain ⟨hother, hentry⟩ := State.entryOf_inserted hnew (by rw [hkey]; exact fun x hx => (hgone x hx).2)
  rw [hkey] at hother hentry
  exact ⟨fun x hx => (hother x hx).trans (by simp [hx]), hentry⟩

/-- R130, R149, R154: queue, zones and line after a success. -/
theorem transmitSuccess_ok (hgood : QueueGood none s) (hk : s.qlc.inFlight = some k) (he : s.entryOf k = some e) :
    let t := s.transmitSuccess
    t = { s with zev := t.zev, nq := t.nq, qlc := t.qlc, raised := t.raised } ∧
    t.qlc = { s.qlc with
      idleIn := 100, qde := false, inFlight := none, frame := [], ownRead := none
      rotation := (s.qlc.rotation + 1) % 32 } ∧
    t.nq.held = none ∧ t.zev.received = s.zev.received ∧
    (s.nq.held = none → t.nq.entries = s.nq.entries.filter fun x => decide (x.key ≠ k)) ∧
    (∀ h, s.nq.held = some h → (s.scs.station = .joining → h.notice = .presence) →
      (∀ x, x.key ≠ k → (x ∈ t.nq.entries ↔ x ∈ s.nq.entries)) ∧
      ((∀ z l, h.notice = .zone z l → t.announced z ≠ some l) → t.entryOf k = some h) ∧
      (∀ z l, h.notice = .zone z l → t.announced z = some l → t.entryOf k = none)) ∧
    (∀ z l, e.notice = .zone z l → t.zev.zones = s.zev.zones.map fun x =>
      if x.zone = z then { x with announced := l } else x) ∧
    ((∀ z, k ≠ .zone z) → t.zev = s.zev) := by
  intro t
  obtain ⟨v, hv⟩ : ∃ v, v = s.sentInFull k e := ⟨_, rfl⟩
  have ht : t = v.releaseAfterSuccess.advanceRotation := hv ▸ State.transmitSuccess_taken hgood hk he
  have hframe := hv.trans State.sentInFull_frame
  obtain ⟨hgone, hroom⟩ := hgood.gone hk he
  have hvnq : v.nq = { s.nq with entries := s.nq.entries.filter fun x => decide (x.key ≠ k) } := by rw [hframe]
  have hvscs : v.scs = s.scs := by rw [hframe]
  have hvqlc := (congrArg State.qlc hframe).trans (State.stopDriving_sending hk)
  have htnq : t.nq = v.releaseAfterSuccess.nq := by rw [ht, State.advanceRotation_eq, State.mapQlc_nq]
  have htzev : t.zev = v.zev := by
    rw [ht, State.advanceRotation_eq, State.mapQlc_zev, State.releaseAfterSuccess_frame]
  have htframe : t = { v with nq := t.nq, qlc := { v.qlc with rotation := (v.qlc.rotation + 1) % 32 } } := by
    rw [htnq, ht, State.advanceRotation_eq, v.releaseAfterSuccess_frame]
    rfl
  refine ⟨?_, ?_, ?_, ?_, fun hh => ?_, fun h hh hjoin => ?_, fun z l hn => ?_, fun hz => ?_⟩
  · exact s.transmitSuccess_only.frame
  · refine (congrArg State.qlc htframe).trans ?_
    simp only
    rw [hvqlc]
  · rw [htnq]
    exact State.releaseAfterSuccess_held (by rw [hvnq]; exact fun x hx => (hgone x hx).1)
  · rw [htzev, hframe]
  · rw [htnq, State.releaseAfterSuccess_none (by rw [hvnq]; exact hh), hvnq]
  · have hvh : v.nq.held = some h := by rw [hvnq]; exact hh
    have hentryOf : t.entryOf k = v.releaseAfterSuccess.entryOf k := by
      unfold State.entryOf
      rw [htnq]
    have hannounced : ∀ z, t.announced z = v.announced z := fun z => by
      unfold State.announced
      rw [htzev]
    simp only [hannounced]
    rw [htnq, hentryOf]
    cases hr : v.redundant h.notice with
    | false =>
      rw [State.releaseAfterSuccess_released hvh hr]
      obtain ⟨hother, hentry⟩ := releaseHeld_after_removal hgood hk he hvnq hvscs hh hjoin
      refine ⟨hother, fun _ => hentry, fun z l hn ha => ?_⟩
      exact absurd (State.redundant_iff.2 ⟨z, l, hn, ha⟩) (by rw [hr]; exact Bool.false_ne_true)
    | true =>
      have hentries : (v.releaseAfterSuccess).nq.entries = s.nq.entries.filter fun x => decide (x.key ≠ k) := by
        rw [State.releaseAfterSuccess_redundant hvh hr, State.mapNq_nq, hvnq]
      refine ⟨fun x hx => ?_, fun hno => ?_, fun z l _ _ => State.entryOf_none.2 ?_⟩
      · rw [hentries]
        simp [hx]
      · exact absurd hr (by rw [State.redundant_false hno]; exact Bool.false_ne_true)
      · rw [hentries]
        exact fun x hx => (hgone x hx).2
  · rw [htzev, hframe]
    exact State.setAnnounced_zone hn
  · rw [htzev, hframe, State.setAnnounced_other]
    rw [show e.notice.key = k from State.entryOf_key he]
    exact hz

/-! #### Collision (R131, R155) -/

theorem State.readOn_stopDriving (hk : s.qlc.inFlight = some k) : s.readOn.stopDriving = { s with
    qlc := { s.qlc with
      idleIn := 100, qde := false, inFlight := none, frame := [], ownRead := none
      rx := s.qlc.ownRead <|> s.qlc.rx } } := by
  have hsending := State.stopDriving_sending (s := s.readOn) hk
  rw [State.stopDriving_eq] at hsending ⊢
  exact congrArg (fun q => { s with qlc := q }) hsending

/-- R131: the entry in flight as it returns. -/
def Entry.returned (e : Entry) : Entry := { e with attempts := e.attempts + 1, inFlight := false }

/-- R131: the queue with the entry of key `k` returned, the held post apart. -/
theorem QueueGood.returnedQueue (hgood : QueueGood none s) (hk : s.qlc.inFlight = some k)
    (he : s.entryOf k = some e) (ha : e.attempts < 5) : QueueSound none none { s.nq with
      entries := s.nq.entries.map fun x => if x.key = k then x.returned else x, held := none } := by
  have hq : QueueSound none (some k) s.nq := hk ▸ hgood.1
  refine hq.returned fun x hx hxk => ⟨⟨rfl, rfl, rfl, rfl, rfl⟩, ?_, rfl⟩
  obtain rfl := hq.eq_of_key hx (State.entryOf_mem he) (hxk.trans (State.entryOf_key he).symm)
  exact Nat.succ_le_of_lt ha

theorem State.collided_returns (hgood : QueueGood none s) (hk : s.qlc.inFlight = some k)
    (he : s.entryOf k = some e) (ha : e.attempts < 5) :
    s.collided k = (s.readOn.stopDriving.changeEntry k Entry.returned).releaseHeld := by
  obtain ⟨hb, hh⟩ := hgood.sending hk
  unfold State.collided
  rw [he]
  simp only
  rw [if_pos ha]
  refine State.follow_busy ?_ ?_
  · rw [State.releaseHeld_frame]
    exact hb
  · rw [State.releaseHeld_frame]
    exact hh

/-- R131, R155: the state once the entry of key `k` has been discarded, before its fault. -/
def State.discarded (s : State) (k : Key) : State := (s.readOn.stopDriving.removeEntry k).releaseHeld

theorem State.collided_discards (hgood : QueueGood none s) (hk : s.qlc.inFlight = some k)
    (he : s.entryOf k = some e) (ha : ¬e.attempts < 5) :
    QueueSound none none (s.discarded k).nq ∧ (s.discarded k).qlc.busy = true ∧
    (s.discarded k).qlc.holdoff = none ∧ s.collided k = (s.discarded k).faultEvent .lineTrouble := by
  obtain ⟨hb, hh⟩ := hgood.sending hk
  have hqlc : (s.discarded k).qlc = s.readOn.stopDriving.qlc := by
    unfold State.discarded
    rw [State.releaseHeld_frame]
    rfl
  have hq : QueueSound none none (s.discarded k).nq := by
    have hdone : QueueGood none (s.discarded k) :=
      QueueGood.discarded (s := s.readOn.stopDriving) (hk ▸ hgood.1 : QueueSound none (some k) s.nq) rfl
        (hgood.2.stopDriving _)
    have hnone : (s.discarded k).qlc.inFlight = none := congrArg Qlc.inFlight hqlc
    exact hnone ▸ hdone.1
  have hb' : (s.discarded k).qlc.busy = true := (congrArg Qlc.busy hqlc).trans hb
  have hh' : (s.discarded k).qlc.holdoff = none := (congrArg Qlc.holdoff hqlc).trans hh
  obtain ⟨hfault, -, -⟩ := State.faultEvent_lineTrouble hb' hh' hq
  refine ⟨hq, hb', hh', ?_⟩
  unfold State.collided
  rw [he]
  simp only
  rw [if_neg ha]
  exact State.follow_busy ((congrArg Qlc.busy hfault).trans hb') ((congrArg Qlc.holdoff hfault).trans hh')

/-- R131: what a collision does to the line, whatever becomes of the entry. -/
theorem State.collided_qlc (hgood : QueueGood none s) (hk : s.qlc.inFlight = some k) (he : s.entryOf k = some e) :
    (s.collided k).qlc = s.readOn.stopDriving.qlc ∧ (s.collided k).nq.held = none := by
  by_cases ha : e.attempts < 5
  · rw [State.collided_returns hgood hk he ha]
    refine ⟨by rw [State.releaseHeld_frame]; rfl, State.releaseHeld_held fun x hx => ?_⟩
    have hq := hgood.returnedQueue hk he ha
    exact Bool.eq_false_iff.2 fun hf => nomatch (hq.flight x hx).1 hf
  · obtain ⟨hq, hb, hh, heq⟩ := State.collided_discards hgood hk he ha
    obtain ⟨hqlc, hheld, -⟩ := State.faultEvent_lineTrouble hb hh hq
    rw [heq, hqlc, hheld]
    unfold State.discarded
    refine ⟨by rw [State.releaseHeld_frame]; rfl, State.releaseHeld_held fun x hx => ?_⟩
    exact ((hgood.gone hk he).1 x hx).1

/-- R131, R149: the entry of a collision returned, the held post folded into it. -/
theorem collided_returned_ok (hgood : QueueGood none s) (hk : s.qlc.inFlight = some k)
    (he : s.entryOf k = some e) (ha : e.attempts < 5) :
    let u := s.collided k
    u.scs = s.scs ∧
    (s.nq.held = none → u.nq.entries = s.nq.entries.map fun x => if x.key = k then x.returned else x) ∧
    (∀ h, s.nq.held = some h → (s.scs.station = .joining → h.notice = .presence) →
      let y := foldNotice e.returned h.notice h.cls
      (∀ x, x.key ≠ k → (x ∈ u.nq.entries ↔ x ∈ s.nq.entries)) ∧
      ((∀ z l, y.notice = .zone z l → s.announced z ≠ some l) → u.entryOf k = some y) ∧
      (∀ z l, y.notice = .zone z l → s.announced z = some l → u.entryOf k = none)) := by
  intro u
  obtain ⟨v, hv⟩ : ∃ v, v = s.readOn.stopDriving.changeEntry k Entry.returned := ⟨_, rfl⟩
  have hu : u = v.releaseHeld := hv ▸ State.collided_returns hgood hk he ha
  refine ⟨?_, fun hh => ?_, fun h hh hjoin => ?_⟩
  · rw [hu, State.releaseHeld_frame, hv]
    rfl
  · rw [hu, State.releaseHeld_none (by rw [hv]; exact hh), hv]
    rfl
  · obtain ⟨w, hw⟩ : ∃ w, w = v.mapNq fun q => { q with held := none } := ⟨_, rfl⟩
    have huw : u = w.takePost h := by
      rw [hu, State.releaseHeld_some (by rw [hv]; exact hh), hw]
    have hkey := hgood.held_key hk hh
    have hsound := hgood.returnedQueue hk he ha
    have hnq : w.nq = { s.nq with
        entries := s.nq.entries.map fun x => if x.key = k then x.returned else x, held := none } := by
      rw [hw, hv]
      rfl
    have hq : QueueSound none w.qlc.inFlight w.nq := by
      rw [hnq, show w.qlc.inFlight = none by rw [hw, hv]; rfl]
      exact hsound
    have hback : e.returned ∈ w.nq.entries := by
      rw [hnq]
      exact List.mem_map.2 ⟨e, State.entryOf_mem he, if_pos (State.entryOf_key he)⟩
    have hentry : w.entryOf h.key = some e.returned := by
      have hret : e.returned.key = h.key := (State.entryOf_key he).trans hkey.symm
      rw [← hret]
      exact State.entryOf_of_unique hback fun y hy hyk => hq.eq_of_key hy hback hyk
    have hdrops : w.dropsPost h.notice = false := State.dropsPost_false (by rw [hw, hv]; exact hjoin)
    have hredundant : ∀ n, w.redundant n = s.redundant n := fun n => by
      rw [hw, hv]
      rfl
    obtain ⟨hother, hfolded, hgone⟩ := State.takePost_folded hq hdrops hentry rfl
    rw [hkey] at hother hfolded hgone
    rw [huw]
    refine ⟨fun x hx => (hother x hx).trans ?_, fun hno => hfolded ?_, fun z l hn hl => hgone ?_⟩
    · rw [hnq, List.mem_map]
      constructor
      · rintro ⟨x', hx', rfl⟩
        by_cases hxk : x'.key = k
        · rw [if_pos hxk] at hx
          exact absurd hxk hx
        · rw [if_neg hxk]
          exact hx'
      · exact fun hmem => ⟨x, hmem, if_neg hx⟩
    · rw [hredundant]
      exact State.redundant_false hno
    · rw [hredundant]
      exact State.redundant_iff.2 ⟨z, l, hn, hl⟩

/-- R149, R155: the entry of the sixth collision discarded, the held post placed anew. -/
theorem collided_discarded_ok (hgood : QueueGood none s) (hk : s.qlc.inFlight = some k)
    (he : s.entryOf k = some e) (ha : ¬e.attempts < 5) :
    let u := s.collided k
    u.scs.faults.lineTrouble = true ∧ u.scs.quietEpoch = false ∧
    (s.nq.held = none → k ≠ .presence → u.entryOf k = none) ∧
    (∀ h, s.nq.held = some h → (s.scs.station = .joining → h.notice = .presence) → u.entryOf k = some h) := by
  intro u
  obtain ⟨hq, hb, hh, heq⟩ := State.collided_discards hgood hk he ha
  obtain ⟨-, -, hkept⟩ := State.faultEvent_lineTrouble hb hh hq
  have hu : u = (s.discarded k).faultEvent .lineTrouble := heq
  refine ⟨?_, ?_, fun hheld hne => ?_, fun h hheld hjoin => ?_⟩
  · rw [hu, State.faultEvent_scs]
    rfl
  · rw [hu, State.faultEvent_scs]
  · rw [hu, hkept k (.inl hne)]
    unfold State.discarded
    rw [State.releaseHeld_none (s := s.readOn.stopDriving.removeEntry k) hheld]
    exact State.entryOf_none.2 fun x hx => ((hgood.gone hk he).1 x hx).2
  · have hentry : (s.discarded k).entryOf k = some h :=
      (releaseHeld_after_removal (v := s.readOn.stopDriving.removeEntry k) hgood hk he rfl rfl hheld hjoin).2
    rw [hu, hkept k (.inr (by rw [hentry]; exact nofun)), hentry]

theorem State.collision_taken (hk : s.qlc.inFlight = some k) : s.collision = (s.collided k).endWhole := by
  unfold State.collision
  rw [hk]

theorem State.endWhole_whole {u : State} {r : RxFrame} (hrx : u.qlc.rx = some r) (h : frameWhole r.chars = true) :
    u.endWhole = u.endFrame r := by
  unfold State.endWhole
  rw [hrx]
  exact if_pos h

end

/-- Settles O51: success and collision, each by the queue that it leaves. -/
theorem transmissionEnds : Obligations.TransmissionEnds := by
  intro s hrst hinv
  have hgood := queueInv_iff.1 hinv
  have hsuccess : exec .transmitSuccess s = .next s.transmitSuccess := congrArg _ (State.unlessHeld_high hrst _)
  have hcollision : exec .collision s = .next s.collision := congrArg _ (State.unlessHeld_high hrst _)
  refine ⟨fun hnone => ?_, fun k e hk he => ?_⟩
  · rw [hsuccess, hcollision]
    unfold State.transmitSuccess State.collision
    rw [hnone]
    exact ⟨rfl, rfl⟩
  · obtain ⟨hframe, hqlc, hheld, hreceived, hnoPost, hpost, hzone, hother⟩ := transmitSuccess_ok hgood hk he
    obtain ⟨huqlc, huheld⟩ := State.collided_qlc hgood hk he
    rw [State.readOn_stopDriving hk] at huqlc
    have honly := s.collided_only k
    refine ⟨_, s.collided k, hsuccess, fun hopen => ?_, fun r hrx hwhole => ?_, hframe, hqlc, hheld, hreceived, hnoPost,
      hpost, hzone, hother, ?_, ?_, ?_, fun r hr => ?_, fun hr => ?_, ?_, ?_, ?_, huheld,
      collided_returned_ok hgood hk he, fun ha => collided_discarded_ok hgood hk he (by omega)⟩
    · rw [hcollision, State.collision_taken hk, State.endWhole_open hopen]
    · rw [hcollision, State.collision_taken hk, State.endWhole_whole hrx hwhole]
    · rw [huqlc]
    · rw [huqlc]
    · rw [huqlc]
    · rw [huqlc]
      simp only
      rw [hr]
      rfl
    · rw [huqlc]
      simp only
      rw [hr]
      rfl
    · rw [honly]
    · rw [honly]
    · rw [honly]

end Sys2Proof.Machine

/-! ### One admission, slot by slot (R63–R73, R76–R78) -/

namespace Sys2Proof.Machine

/-! #### The track that an admission leaves (R71, R73) -/

/-- R71, R73: the track `x` once an admission has completed it, faded where common time has already reached the
fade deadline so set. -/
def Track.admitted (x : Track) (s : State) : Track :=
  if reached s.prt.time (x.complete s.tables).fade then
    (x.complete s.tables).faded s.prt.time (site s.tables).closeTime
  else x.complete s.tables

section
variable {x : Track} {s : State}

theorem Track.complete_settled (h : TrackShaped x) (m : Memory) : (x.complete m).state ≠ .fading := by
  rw [Track.complete_eq m h]
  simp only
  split <;> exact nofun

theorem Track.complete_fadeDue (h : TrackShaped x) (m : Memory) (now : Time) :
    (x.complete m).fadeDue now = reached now (x.complete m).fade := by
  unfold Track.fadeDue
  rw [decide_eq_true (Track.complete_settled h m), Bool.true_and]

/-- R71: what completion and the fade leave as the request made it. -/
theorem Track.admitted_frame (h : TrackShaped x) : (x.admitted s).id = x.id ∧ (x.admitted s).sector = x.sector ∧
    (x.admitted s).onset = x.onset ∧ (x.admitted s).placeholder = x.placeholder ∧
    (x.admitted s).sightings = x.sightings ∧ (x.admitted s).last = x.last ∧
    (x.admitted s).fade = (x.complete s.tables).fade := by
  unfold Track.admitted
  split
  · unfold Track.faded
    rw [Track.complete_eq _ h]
    exact ⟨rfl, rfl, rfl, rfl, rfl, rfl, rfl⟩
  · rw [Track.complete_eq _ h]
    exact ⟨rfl, rfl, rfl, rfl, rfl, rfl, rfl⟩

theorem Track.admitted_completed (h : TrackShaped x) : TrackCompleted s x.confirmed (x.admitted s) := by
  have hc := Track.complete_eq s.tables h
  unfold Track.admitted
  by_cases hr : reached s.prt.time (x.complete s.tables).fade = true
  · rw [if_pos hr]
    rw [hc] at hr ⊢
    exact ⟨rfl, rfl, rfl, rfl, rfl, fun hno => absurd (hr.symm.trans hno) nofun, fun _ => ⟨rfl, rfl⟩⟩
  · rw [if_neg hr]
    rw [hc] at hr ⊢
    exact ⟨rfl, rfl, rfl, rfl, rfl, fun _ => ⟨rfl, rfl⟩, fun hyes => absurd hyes hr⟩

end

/-! #### Slots changed twice -/

theorem replaceTrack_twice {id : TrackId} {c : Track} (hc : c.id = id) (o : Option Track)
    (l : List (Option Track)) : replaceTrack (replaceTrack l id (some c)) id o = replaceTrack l id o := by
  induction l with
  | nil => rfl
  | cons y l ih =>
    cases y with
    | none => exact congrArg _ ih
    | some x =>
      rw [replaceTrack_taken, replaceTrack_taken]
      by_cases hx : x.id = id
      · rw [if_pos hx, if_pos hx, replaceTrack_taken, if_pos hc, ih]
      · rw [if_neg hx, if_neg hx, replaceTrack_taken, if_neg hx, ih]

/-- An id that no slot holds, placed in the slot of another. -/
theorem replaceTrack_after_other {id v : TrackId} {c : Track} (hc : c.id = id) {l : List (Option Track)}
    (hfree : ∀ t ∈ liveTracks l, t.id ≠ id) (o : Option Track) :
    replaceTrack (replaceTrack l v (some c)) id o = replaceTrack l v o := by
  induction l with
  | nil => rfl
  | cons y l ih =>
    cases y with
    | none => exact congrArg _ (ih hfree)
    | some x =>
      have hx : x.id ≠ id := hfree x (List.mem_cons_self ..)
      have hrest := ih fun t ht => hfree t (List.mem_cons_of_mem _ ht)
      rw [replaceTrack_taken, replaceTrack_taken]
      by_cases hv : x.id = v
      · rw [if_pos hv, if_pos hv, replaceTrack_taken, if_pos hc, hrest]
      · rw [if_neg hv, if_neg hv, replaceTrack_taken, if_neg hx, hrest]

theorem replaceTrack_after_set {id : TrackId} {c : Track} (hc : c.id = id) {l : List (Option Track)}
    (hfree : ∀ t ∈ liveTracks l, t.id ≠ id) {k : Nat} (hk : l[k]? = some none) (o : Option Track) :
    replaceTrack (l.set k (some c)) id o = l.set k o := by
  induction l generalizing k with
  | nil => exact nomatch hk
  | cons y l ih =>
    cases k with
    | zero =>
      have hrest : replaceTrack l id o = l := by
        refine (List.map_congr_left fun z hz => ?_).trans (List.map_id l)
        cases z with
        | none => rfl
        | some t => exact if_neg (hfree t (mem_liveTracks.2 (List.mem_cons_of_mem _ hz)))
      rw [List.set_cons_zero, List.set_cons_zero, replaceTrack_taken, if_pos hc, hrest]
    | succ k =>
      have hrest := ih (k := k) (fun t ht => hfree t
        (mem_liveTracks.2 (List.mem_cons_of_mem _ (mem_liveTracks.1 ht)))) hk
      rw [List.set_cons_succ, List.set_cons_succ]
      cases y with
      | none => exact congrArg _ hrest
      | some x =>
        rw [replaceTrack_taken, if_neg (hfree x (mem_liveTracks.2 List.mem_cons_self)), hrest]

theorem slotTrack_set {id : TrackId} {c : Track} {l : List (Option Track)} {k : Nat} (hk : l[k]? = some none)
    (hc : c.id = id) (hfree : slotTrack l id = none) : slotTrack (l.set k (some c)) id = some c ∧
      ∀ i, i ≠ id → slotTrack (l.set k (some c)) i = slotTrack l i := by
  induction l generalizing k with
  | nil => exact nomatch hk
  | cons y l ih =>
    cases k with
    | zero =>
      obtain rfl : y = none := Option.some.inj hk
      rw [List.set_cons_zero]
      refine ⟨by rw [slotTrack_taken, if_pos hc], fun i hi => ?_⟩
      rw [slotTrack_taken, if_neg (hc ▸ hi.symm), slotTrack_free]
    | succ k =>
      rw [List.set_cons_succ]
      cases y with
      | none => exact ih hk hfree
      | some x =>
        rw [slotTrack_taken] at hfree
        by_cases hx : x.id = id
        · rw [if_pos hx] at hfree
          exact nomatch hfree
        · rw [if_neg hx] at hfree
          obtain ⟨hsame, hother⟩ := ih hk hfree
          refine ⟨by rw [slotTrack_taken, if_neg hx, hsame], fun i hi => ?_⟩
          rw [slotTrack_taken, slotTrack_taken, hother i hi]

theorem slotTrack_none {l : List (Option Track)} {id : TrackId} :
    slotTrack l id = none ↔ ∀ t ∈ liveTracks l, t.id ≠ id := by
  simp only [slotTrack, List.findSome?_eq_none_iff, mem_liveTracks]
  constructor
  · intro h t ht hid
    have := h (some t) ht
    simp [hid] at this
  · rintro h (- | t) ho
    · rfl
    · exact if_neg (h t ho)

theorem slotTrack_replaced {id : TrackId} {c v : Track} {l : List (Option Track)} (hv : v ∈ liveTracks l)
    (hc : c.id = id) (hfree : slotTrack l id = none) : slotTrack (replaceTrack l v.id (some c)) id = some c := by
  induction l with
  | nil => exact nomatch hv
  | cons y l ih =>
    cases y with
    | none => exact ih hv hfree
    | some x =>
      rw [slotTrack_taken] at hfree
      rw [replaceTrack_taken]
      by_cases hx : x.id = v.id
      · rw [if_pos hx, slotTrack_taken, if_pos hc]
      · rw [if_neg hx, slotTrack_taken]
        by_cases hid : x.id = id
        · rw [if_pos hid] at hfree
          exact nomatch hfree
        · rw [if_neg hid] at hfree
          rw [if_neg hid]
          obtain rfl | hmem := List.mem_cons.1 hv
          · exact absurd rfl hx
          · exact ih hmem hfree

/-- The slots changed at one track of a sound table. -/
theorem slotChanged_of_replace {s t : State} (h : TracksInv s) {old new : Track} (hold : old ∈ liveTracks s.tracks)
    (ht : t.tracks = replaceTrack s.tracks old.id (some new)) : SlotChanged s t old new := by
  obtain ⟨-, hids, -⟩ := h
  intro k
  rw [ht]
  unfold replaceTrack
  rw [List.getElem?_map]
  refine ⟨fun hk => by rw [hk]; simp, fun hk => ?_⟩
  cases hslot : s.tracks[k]? with
  | none => rfl
  | some o =>
    cases o with
    | none => rfl
    | some x =>
      have hne : x.id ≠ old.id := fun hid => hk (by
        rw [hslot, SlotsOk.eq_of_id hids (mem_liveTracks.2 (List.mem_of_getElem? hslot)) hold hid])
      exact congrArg some (if_neg hne)

/-! #### Places for a new track (R64, R76–R78) -/

theorem createIn_some {l l' : List (Option Track)} {c : Track} {time : Time} (h : createIn l c time = some l') :
    (∃ k : Nat, l[k]? = some none ∧ (∀ j : Nat, j < k → l[j]? ≠ some none) ∧ l' = l.set k (some c)) ∨
    (none ∉ l ∧ ∃ v, victim (liveTracks l) time = some v ∧ l' = replaceTrack l v.id (some c)) := by
  unfold createIn at h
  split at h
  · next m hm =>
    cases h
    obtain ⟨a, b, rfl, rfl⟩ := fillFree_some hm
    have hlen : (a.map some).length = a.length := List.length_map _
    refine .inl ⟨a.length, ?_, fun j hj => ?_, ?_⟩
    · rw [List.getElem?_append_right (by omega), hlen, Nat.sub_self]
      rfl
    · rw [List.getElem?_append_left (by omega), List.getElem?_map, List.getElem?_eq_getElem hj]
      exact nofun
    · rw [List.set_append_right _ _ (by omega), hlen, Nat.sub_self]
      rfl
  · next hnone =>
    split at h
    · next v hv =>
      cases h
      exact .inr ⟨fillFree_none.1 hnone, v, hv, rfl⟩
    · exact nomatch h

theorem createIn_none {l : List (Option Track)} {c : Track} {time : Time} :
    createIn l c time = none ↔ none ∉ l ∧ victim (liveTracks l) time = none := by
  unfold createIn
  rw [← fillFree_none (t := c)]
  cases fillFree l c with
  | some m => simp
  | none => cases victim (liveTracks l) time <;> simp

/-! #### The admission (R63–R69) -/

/-- R65, R67, R68: what a request makes of the track that it finds. -/
def Request.onto (r : Request) (t : Track) : Track :=
  match r.form with
  | .new => t.fill r
  | .join => t.joined r.sighting
  | .update => t.updated r

/-- R64, R69: the track that a request of an unheld id makes. -/
def Request.made (r : Request) : Track := if r.form = .new then r.newTrack else r.placeholderTrack

/-- R63, R151: what an admission raises, a fade that follows it apart. -/
def Request.events (r : Request) (peer : Bool) : List Instr :=
  if peer = true ∧ r.form = .new then [.evaluation, .preCheck r.id] else [.evaluation]

section
variable {s : State} {r : Request} {tr : Track}

theorem Request.onto_shaped (h : TrackShaped tr) : TrackShaped (r.onto tr) ∧ (r.onto tr).id = tr.id ∧
    (r.onto tr).confirmed = tr.confirmed := by
  unfold Request.onto
  cases r.form with
  | new => exact ⟨h.fill r, rfl, rfl⟩
  | join => exact ⟨h.joined _, rfl, rfl⟩
  | update => exact ⟨h.updated r, tr.updated_frame r⟩

theorem Request.made_shaped (r : Request) : TrackShaped r.made ∧ r.made.id = r.id ∧ r.made.confirmed = false := by
  unfold Request.made
  split
  · exact ⟨r.newTrack_shaped, rfl, rfl⟩
  · exact ⟨r.placeholderTrack_shaped, rfl, rfl⟩

theorem State.admission_admitted {l : List (Option Track)}
    (h : admitSlots s.tables s.tracks (s.trackOf r.id) r = (.admitted, l)) (peer : Bool) :
    s.admission r peer = (.admitted,
      ({ s with tracks := l, raised := s.raised ++ r.events peer } : State).fadeTrack r.id) := by
  unfold State.admission
  rw [h]
  unfold Request.events
  by_cases hp : peer = true ∧ r.form = .new
  · simp [hp, State.raise, State.setTracks]
  · have hp' : ¬((peer && decide (r.form = .new)) = true) := by simpa using hp
    simp only [hp', hp, if_false, State.raise, State.setTracks]
    rfl

/-- R71, R73: the fade that may follow at once, wherever the admission has put the completed track. -/
theorem State.fadeTrack_put {put : Track → List (Option Track)} {x : Track} (hx : TrackShaped x)
    (hput : s.tracks = put (x.complete s.tables)) (hfind : slotTrack s.tracks x.id = some (x.complete s.tables))
    (hagain : ∀ u : Track, u.id = x.id → replaceTrack s.tracks x.id (some u) = put u) : s.fadeTrack x.id =
      { s with tracks := put (x.admitted s), raised := s.raised ++ fadeEvents s (x.admitted s) } := by
  have hfade := (Track.admitted_frame (s := s) hx).2.2.2.2.2.2
  have hfound : s.trackOf x.id = some (x.complete s.tables) := s.trackOf_eq_slotTrack x.id ▸ hfind
  unfold State.fadeTrack fadeEvents
  rw [hfound, hfade]
  simp only
  rw [Track.complete_fadeDue hx]
  unfold Track.admitted
  by_cases hr : reached s.prt.time (x.complete s.tables).fade = true
  · rw [State.now_eq, if_pos hr, if_pos hr, if_pos hr,
      hagain ((x.complete s.tables).faded s.prt.time (site s.tables).closeTime) (Track.complete_frame _ _).1]
    rfl
  · rw [State.now_eq, if_neg hr, if_neg hr, if_neg hr, ← hput, List.append_nil]

/-- R65, R67, R68, R71, R73: an admission to a held track. -/
theorem State.admission_held (hinv : TracksInv s) (ht : s.trackOf r.id = some tr)
    (hfill : r.form = .new → tr.placeholder = true) (peer : Bool) : s.admission r peer = (.admitted, { s with
      tracks := replaceTrack s.tracks r.id (some ((r.onto tr).admitted s))
      raised := s.raised ++ r.events peer ++ fadeEvents s ((r.onto tr).admitted s) }) := by
  obtain ⟨hmem, hid⟩ := State.trackOf_some ht
  obtain ⟨hshape, hontoId, -⟩ := Request.onto_shaped (r := r) (hinv.2.2 tr hmem).shaped
  have hrid : (r.onto tr).id = r.id := hontoId.trans hid
  have hslots : admitSlots s.tables s.tracks (s.trackOf r.id) r =
      (.admitted, replaceTrack s.tracks r.id (some ((r.onto tr).complete s.tables))) := by
    rw [ht]
    unfold admitSlots Request.onto
    cases hform : r.form with
    | new =>
      simp only
      rw [if_pos (hfill hform)]
    | join => rfl
    | update => rfl
  have hcid : ((r.onto tr).complete s.tables).id = r.id := (Track.complete_frame _ _).1.trans hrid
  rw [State.admission_admitted hslots]
  refine congrArg (Prod.mk Answer.admitted) ?_
  rw [← hrid]
  refine State.fadeTrack_put (s := { s with
      tracks := replaceTrack s.tracks (r.onto tr).id (some ((r.onto tr).complete s.tables))
      raised := s.raised ++ r.events peer })
    (put := fun c => replaceTrack s.tracks (r.onto tr).id (some c)) hshape rfl ?_ fun u _ => ?_
  · exact slotTrack_replace_same (hrid ▸ s.trackOf_eq_slotTrack r.id ▸ ht) (hcid.trans hrid.symm)
  · exact replaceTrack_twice (hcid.trans hrid.symm) _ _

/-- R64, R69, R76–R78: an admission of an unheld id. -/
theorem State.admission_created (ht : s.trackOf r.id = none) (hplace : ¬NoPlace s r.sighting.time) (peer : Bool) :
    ∃ l, s.admission r peer = (.admitted, { s with
        tracks := l, raised := s.raised ++ r.events peer ++ fadeEvents s (r.made.admitted s) }) ∧
      ((∃ k : Nat, s.tracks[k]? = some none ∧ (∀ j : Nat, j < k → s.tracks[j]? ≠ some none) ∧
          l = s.tracks.set k (some (r.made.admitted s))) ∨
        (none ∉ s.tracks ∧ ∃ v, victim (liveTracks s.tracks) r.sighting.time = some v ∧
          l = replaceTrack s.tracks v.id (some (r.made.admitted s)))) := by
  obtain ⟨hshape, hid, -⟩ := r.made_shaped
  have hcid : (r.made.complete s.tables).id = r.made.id := (Track.complete_frame _ _).1
  have hnone : slotTrack s.tracks r.made.id = none := by
    rw [hid, ← s.trackOf_eq_slotTrack]
    exact ht
  have hfree := slotTrack_none.1 hnone
  obtain ⟨l, hl⟩ : ∃ l, createIn s.tracks (r.made.complete s.tables) r.sighting.time = some l :=
    Option.ne_none_iff_exists'.1 fun hno => hplace (createIn_none.1 hno)
  have hslots : admitSlots s.tables s.tracks (s.trackOf r.id) r = (.admitted, l) := by
    rw [ht]
    unfold admitSlots
    simp only
    rw [show (if r.form = .new then r.newTrack else r.placeholderTrack) = r.made from rfl, hl]
  rw [State.admission_admitted hslots, ← hid]
  have hput : ∀ put : Track → List (Option Track), l = put (r.made.complete s.tables) →
      slotTrack l r.made.id = some (r.made.complete s.tables) →
      (∀ u : Track, u.id = r.made.id → replaceTrack l r.made.id (some u) = put u) →
      ({ s with tracks := l, raised := s.raised ++ r.events peer } : State).fadeTrack r.made.id = { s with
        tracks := put (r.made.admitted s)
        raised := s.raised ++ r.events peer ++ fadeEvents s (r.made.admitted s) } :=
    fun put h1 h2 h3 => State.fadeTrack_put (s := { s with tracks := l, raised := s.raised ++ r.events peer })
      hshape h1 h2 h3
  obtain ⟨k, hk, hlow, rfl⟩ | ⟨hfull, v, hv, rfl⟩ := createIn_some hl
  · refine ⟨_, congrArg (Prod.mk Answer.admitted) (hput (fun c => s.tracks.set k (some c)) rfl
      (slotTrack_set hk hcid hnone).1 fun u _ => replaceTrack_after_set hcid hfree hk _), .inl ⟨k, hk, hlow, rfl⟩⟩
  · refine ⟨_, congrArg (Prod.mk Answer.admitted) (hput (fun c => replaceTrack s.tracks v.id (some c)) rfl
      (slotTrack_replaced (mem_of_victim hv) hcid hnone) fun u _ => replaceTrack_after_other hcid hfree _),
      .inr ⟨hfull, v, hv, rfl⟩⟩

theorem State.admission_full (ht : s.trackOf r.id = none) (hno : NoPlace s r.sighting.time) (peer : Bool) :
    s.admission r peer = (.full, s) := by
  unfold State.admission admitSlots
  rw [ht]
  simp only
  rw [createIn_none.2 hno]

theorem State.admission_duplicate (ht : s.trackOf r.id = some tr) (hform : r.form = .new)
    (hp : tr.placeholder = false) (peer : Bool) : s.admission r peer = (.duplicate, s) := by
  unfold State.admission admitSlots
  rw [ht, hform]
  simp only
  rw [hp]
  rfl

end

end Sys2Proof.Machine

/-! ### A peer's SIGHTING admitted (R63–R70, R76–R78, O35) -/

namespace Sys2Proof.Machine

/-! #### From the frame to the request (R140) -/

/-- R140: the request that a SIGHTING of `sender` makes. -/
def SightingNotice.requestOf (p : SightingNotice) (sender : Nat) (updateTime : Time) : Request where
  form := p.form
  id := p.id
  sector := p.sector
  sighting := p.record sender
  updateTime := updateTime

/-- R140, log 21: the update time of a SIGHTING sent at `stamp`. -/
def State.updateTime (s : State) (stamp : Time) : Time := if earlier s.prt.time stamp then s.prt.time else stamp

/-- R135–R140: the state that a peer's SIGHTING in time leaves. -/
def State.sightingTaken (s : State) (sender : Nat) (stamp : Time) (p : SightingNotice) : State :=
  (s.framePassed sender).dispatchSighting (frameBytes .sighting sender stamp (sightingBytes p)) sender p

section
variable {s : State} {sender : Nat} {stamp : Time} {p : SightingNotice}

theorem State.dispatch_sighting (hs : sender ≤ 32) (hp : SightingInRange sender p) (hstale : s.stale p.time = false)
    (arrival : Time) : s.dispatch .sighting (frameBytes .sighting sender stamp (sightingBytes p)) arrival =
      s.dispatchSighting (frameBytes .sighting sender stamp (sightingBytes p)) sender p := by
  unfold State.dispatch
  simp only
  rw [readSighting_frame hs hp, frameBytes_sender hs]
  simp only
  rw [hstale]
  rfl

theorem State.stale_congr {s t : State} (htables : t.tables = s.tables) (htime : t.prt.time = s.prt.time) (x : Time) :
    t.stale x = s.stale x := by
  unfold State.stale
  rw [htables, State.now_eq, State.now_eq, htime]

theorem exec_sightingFrame {r : RxFrame} {brought : List Byte}
    (harr : FrameArrives s r brought (frameBytes .sighting sender stamp (sightingBytes p)))
    (hpeer : FromPeer s sender) (hp : SightingInRange sender p) (hstale : s.stale p.time = false) :
    exec (.frameReceived brought) s = .next (s.sightingTaken sender stamp p) := by
  obtain ⟨hl, hown, hm⟩ := hpeer
  obtain ⟨-, -, -, -, htables, -, htime⟩ := s.framePassed_fields sender
  have hs := (stationPresent_range hl).2
  have hlen : (sightingBytes p).length < 249 := show 13 < 249 by decide
  have hform : formOk .sighting (frameBytes .sighting sender stamp (sightingBytes p)) = true :=
    (sightingFrameReads sender stamp p (stationPresent_range hl).1 hs hp).2.2.1
  rw [exec_frame_dispatched hlen hs hform harr hl hown (.inr hm),
    State.dispatch_sighting hs hp ((State.stale_congr htables htime _).trans hstale)]
  rfl

/-! #### The answers to the request (R140) -/

/-- R140, R141: what TRT's answer makes of the frame of a request. -/
def answered (frame : List Byte) : Answer × State → State
  | (.admitted, s) => s
  | (.duplicate, s) => s.reject 11 frame
  | (.full, s) => s.reject 12 frame

theorem answered_duplicate (frame : List Byte) (s : State) : answered frame (.duplicate, s) = s.reject 11 frame := rfl

theorem answered_full (frame : List Byte) (s : State) : answered frame (.full, s) = s.reject 12 frame := rfl

theorem State.dispatchSighting_answered {updateTime : Time} (h : s.updateTime stamp = updateTime) :
    s.dispatchSighting (frameBytes .sighting sender stamp (sightingBytes p)) sender p =
      answered (frameBytes .sighting sender stamp (sightingBytes p))
        (s.admission (p.requestOf sender updateTime) true) := by
  subst h
  unfold State.dispatchSighting
  simp only
  rw [frameBytes_stamp]
  rfl

end

/-! #### What the reception of a frame leaves to the admission -/

section
variable {s t : State}

theorem Track.admitted_congr (htables : t.tables = s.tables) (htime : t.prt.time = s.prt.time) (x : Track) :
    x.admitted t = x.admitted s := by
  unfold Track.admitted
  rw [htables, htime]

theorem fadeEvents_congr (htime : t.prt.time = s.prt.time) (u : Track) : fadeEvents t u = fadeEvents s u := by
  unfold fadeEvents
  rw [htime]

theorem State.trackOf_congr (h : t.tracks = s.tracks) (id : TrackId) : t.trackOf id = s.trackOf id := by
  unfold State.trackOf
  rw [h]

theorem noPlace_congr (h : t.tracks = s.tracks) (time : Time) : NoPlace t time ↔ NoPlace s time := by
  unfold NoPlace
  rw [h]

end

section
variable {s : State} {sender : Nat} {stamp : Time} {p : SightingNotice} {tr : Track}

/-- R65, R67, R68: a peer's SIGHTING of a held track. -/
theorem sightingTaken_held (hinv : TracksInv s) (ht : s.trackOf p.id = some tr)
    (hfill : p.form = .new → tr.placeholder = true) :
    let r := p.requestOf sender (s.updateTime stamp)
    let u := (r.onto tr).admitted s
    let t := s.sightingTaken sender stamp p
    SlotChanged s t tr u ∧ t.qlc = s.qlc.afterFrame ∧
    t.raised = (s.framePassed sender).raised ++ r.events true ++ fadeEvents s u := by
  obtain ⟨-, htracks, -, hqlc, htables, -, htime⟩ := s.framePassed_fields sender
  have hupdate : (s.framePassed sender).updateTime stamp = s.updateTime stamp := by
    unfold State.updateTime
    rw [htime]
  obtain ⟨hmem, hid⟩ := State.trackOf_some ht
  intro r u t
  have hheld := State.admission_held (s := s.framePassed sender) (r := r)
    (by unfold TracksInv; rw [htracks]; exact hinv) ((State.trackOf_congr htracks _).trans ht) hfill true
  rw [Track.admitted_congr htables htime, fadeEvents_congr htime, htracks] at hheld
  have htaken : t = _ := (State.dispatchSighting_answered hupdate).trans (congrArg (answered _) hheld)
  refine ⟨slotChanged_of_replace hinv hmem ?_, ?_, ?_⟩
  · rw [htaken, hid]
    rfl
  · rw [htaken]
    exact hqlc
  · rw [htaken]
    rfl

/-- R64, R69, R76: a peer's SIGHTING of an unheld id where the table has a place. -/
theorem sightingTaken_created (ht : s.trackOf p.id = none) (hplace : ¬NoPlace s p.time) :
    let r := p.requestOf sender (s.updateTime stamp)
    let u := r.made.admitted s
    let t := s.sightingTaken sender stamp p
    ((∃ k : Nat, s.tracks[k]? = some none ∧ (∀ j : Nat, j < k → s.tracks[j]? ≠ some none) ∧
        t.tracks = s.tracks.set k (some u)) ∨
      (none ∉ s.tracks ∧ ∃ v, victim (liveTracks s.tracks) p.time = some v ∧
        t.tracks = replaceTrack s.tracks v.id (some u))) ∧
    t.qlc = s.qlc.afterFrame ∧
    t.raised = (s.framePassed sender).raised ++ r.events true ++ fadeEvents s u := by
  obtain ⟨-, htracks, -, hqlc, htables, -, htime⟩ := s.framePassed_fields sender
  have hupdate : (s.framePassed sender).updateTime stamp = s.updateTime stamp := by
    unfold State.updateTime
    rw [htime]
  intro r u t
  obtain ⟨l, hadmission, hl⟩ := State.admission_created (s := s.framePassed sender) (r := r)
    ((State.trackOf_congr htracks _).trans ht) (fun hno => hplace ((noPlace_congr htracks _).1 hno)) true
  rw [Track.admitted_congr htables htime, fadeEvents_congr htime] at hadmission
  rw [Track.admitted_congr htables htime, htracks] at hl
  have htaken : t = _ := (State.dispatchSighting_answered hupdate).trans (congrArg (answered _) hadmission)
  rw [htaken]
  exact ⟨hl, hqlc, rfl⟩

theorem sightingTaken_full (ht : s.trackOf p.id = none) (hno : NoPlace s p.time) :
    (s.sightingTaken sender stamp p).tracks = s.tracks ∧
    (s.sightingTaken sender stamp p).qlc = s.qlc.afterReject 12 sender 0x32 := by
  obtain ⟨-, htracks, -, hqlc, -⟩ := s.framePassed_fields sender
  have hfull := State.admission_full (s := s.framePassed sender)
    (r := p.requestOf sender ((s.framePassed sender).updateTime stamp))
    ((State.trackOf_congr htracks _).trans ht) ((noPlace_congr htracks _).2 hno) true
  have htaken : s.sightingTaken sender stamp p = _ :=
    (State.dispatchSighting_answered rfl).trans (congrArg (answered _) hfull)
  rw [htaken, answered_full, reject_frameBytes, hqlc]
  exact ⟨htracks, rfl⟩

theorem sightingTaken_duplicate (ht : s.trackOf p.id = some tr) (hform : p.form = .new)
    (hp : tr.placeholder = false) : s.sightingTaken sender stamp p = { s.framePassed sender with
      qlc := s.qlc.afterReject 11 sender 0x32 } := by
  obtain ⟨-, htracks, -, hqlc, -⟩ := s.framePassed_fields sender
  have hdup := State.admission_duplicate (s := s.framePassed sender)
    (r := p.requestOf sender ((s.framePassed sender).updateTime stamp))
    ((State.trackOf_congr htracks _).trans ht) hform hp true
  have htaken : s.sightingTaken sender stamp p = _ :=
    (State.dispatchSighting_answered rfl).trans (congrArg (answered _) hdup)
  rw [htaken, answered_duplicate, reject_frameBytes, hqlc]
  rfl

end

end Sys2Proof.Machine

/-! ### Sightings placed and JOINs taken (R60–R63, R67–R71, O35) -/

namespace Sys2Proof.Machine

/-! #### A sighting placed (R60, R70) -/

/-- R60: a sighting goes before the first that it precedes. -/
theorem insertSighting_split (x : Sighting) (l : List Sighting) : ∃ before after, l = before ++ after ∧
    insertSighting x l = before ++ x :: after ∧ (∀ y ∈ before, x.before y = false) ∧
    ∀ y, after.head? = some y → x.before y = true := by
  induction l with
  | nil => exact ⟨[], [], rfl, rfl, nofun, nofun⟩
  | cons y ys ih =>
    unfold insertSighting
    by_cases hxy : x.before y = true
    · rw [if_pos hxy]
      refine ⟨[], y :: ys, rfl, rfl, nofun, fun z hz => ?_⟩
      obtain rfl := Option.some.inj hz
      exact hxy
    · rw [if_neg hxy]
      obtain ⟨before, after, hys, hins, hbefore, hafter⟩ := ih
      refine ⟨y :: before, after, by rw [hys]; rfl, by rw [hins]; rfl, fun z hz => ?_, hafter⟩
      obtain rfl | hz := List.mem_cons.1 hz
      · exact Bool.not_eq_true _ ▸ hxy
      · exact hbefore z hz

theorem overflow_short {l : List Sighting} (h : l.length ≤ 6) : overflow l = l :=
  if_neg (show ¬Config.maxSightings < l.length from Nat.not_lt.2 h)

theorem overflow_long {a b : Sighting} {l : List Sighting} (h : l.length = 5) : overflow (a :: b :: l) = a :: l := by
  refine if_pos ?_
  rw [List.length_cons, List.length_cons, h]
  decide

/-- R60, R61, R67, R70: the list of a track that a sighting has joined. -/
theorem joined_placed {t : Track} (h : TrackOk t) (x : Sighting) :
    (t.joined x).sightings.length ≤ 6 ∧ ((t.joined x).sightings.map (·.station)).Nodup ∧
    ∃ before after, withoutStation t.sightings x.station = before ++ after ∧
      (∀ y ∈ before, x.before y = false) ∧ (∀ y, after.head? = some y → x.before y = true) ∧
      ((before ++ x :: after).length ≤ 6 → (t.joined x).sightings = before ++ x :: after) ∧
      (∀ a b l, before ++ x :: after = a :: b :: l → l.length = 5 → (t.joined x).sightings = a :: l) := by
  have hshape := h.shaped.joined x
  obtain ⟨before, after, hlist, hins, hbefore, hafter⟩ :=
    insertSighting_split x (withoutStation t.sightings x.station)
  have hplaced : (t.joined x).sightings = overflow (before ++ x :: after) := congrArg overflow hins
  refine ⟨hshape.few_sightings, hshape.stations, before, after, hlist, hbefore, hafter, fun hshort => ?_,
    fun a b l heq hlen => ?_⟩
  · rw [hplaced, overflow_short hshort]
  · rw [hplaced, heq, overflow_long hlen]

/-! #### JOIN and UPDATE (R67, R68) -/

section
variable {s : State} {r : Request} {tr : Track}

/-- R67, R68: what a request that is no NEW keeps of the track it finds. -/
theorem trackKept_onto (h : TrackOk tr) (hform : r.form ≠ .new) : TrackKept tr ((r.onto tr).admitted s) := by
  obtain ⟨hid, hsector, honset, hplaceholder, -⟩ :=
    Track.admitted_frame (s := s) (Request.onto_shaped (r := r) h.shaped).1
  have honto : (r.onto tr).id = tr.id ∧ (r.onto tr).sector = tr.sector ∧ (r.onto tr).onset = tr.onset ∧
      (r.onto tr).placeholder = tr.placeholder := by
    unfold Request.onto
    cases hcase : r.form with
    | new => exact absurd hcase hform
    | join => exact ⟨rfl, rfl, rfl, rfl⟩
    | update =>
      unfold Track.updated
      simp only
      split <;> exact ⟨rfl, rfl, rfl, rfl⟩
  obtain ⟨h1, h2, h3, h4⟩ := honto
  exact ⟨hid.trans h1, hsector.trans h2, honset.trans h3, hplaceholder.trans h4⟩

theorem trackCompleted_onto (h : TrackOk tr) : TrackCompleted s tr.confirmed ((r.onto tr).admitted s) := by
  obtain ⟨hshape, -, hconfirmed⟩ := Request.onto_shaped (r := r) h.shaped
  rw [← hconfirmed]
  exact Track.admitted_completed hshape

theorem sightingJoined_onto (h : TrackOk tr) (hform : r.form = .join) :
    SightingJoined tr r.sighting ((r.onto tr).admitted s) := by
  obtain ⟨-, -, -, -, hsightings, hlast, -⟩ :=
    Track.admitted_frame (s := s) (Request.onto_shaped (r := r) h.shaped).1
  have honto : r.onto tr = tr.joined r.sighting := by
    unfold Request.onto
    rw [hform]
  rw [honto] at hsightings hlast ⊢
  exact ⟨hsightings, hlast⟩

theorem Track.updated_raised {x : Sighting} (h : sightingOf tr.sightings r.sighting.station = some x) :
    tr.updated r = { tr with
      sightings := tr.sightings.map fun x => if x.station = r.sighting.station then raiseSighting x r.sighting else x
      last := laterTime tr.last r.updateTime } := by
  unfold Track.updated
  rw [h]

theorem Track.updated_joined (h : sightingOf tr.sightings r.sighting.station = none) :
    tr.updated r = { tr with
      sightings := placeSighting tr.sightings r.sighting
      last := laterTime (laterTime tr.last r.sighting.time) r.updateTime } := by
  unfold Track.updated
  rw [h]
  rfl

theorem sightingUpdated_onto (h : TrackOk tr) (hform : r.form = .update) :
    SightingUpdated tr r.sighting r.updateTime ((r.onto tr).admitted s) := by
  obtain ⟨-, -, -, -, hsightings, hlast, -⟩ :=
    Track.admitted_frame (s := s) (Request.onto_shaped (r := r) h.shaped).1
  have honto : r.onto tr = tr.updated r := by
    unfold Request.onto
    rw [hform]
  rw [honto] at hsightings hlast ⊢
  refine ⟨fun hsome => ?_, fun hnone => ?_⟩
  · obtain ⟨x, hx⟩ := Option.isSome_iff_exists.1 hsome
    rw [Track.updated_raised hx] at hsightings hlast ⊢
    exact ⟨hsightings, hlast⟩
  · rw [Track.updated_joined hnone] at hsightings hlast ⊢
    exact ⟨hsightings, hlast⟩

end

/-! #### A new track (R64, R69, R76) -/

theorem trackCreated_made (s : State) (p : SightingNotice) (sender : Nat) (updateTime : Time) :
    TrackCreated s p sender updateTime ((p.requestOf sender updateTime).made.admitted s) := by
  obtain ⟨hshape, -, hconfirmed⟩ := (p.requestOf sender updateTime).made_shaped
  obtain ⟨hid, hsector, honset, hplaceholder, hsightings, hlast, -⟩ := Track.admitted_frame (s := s) hshape
  have hcompleted := Track.admitted_completed (s := s) hshape
  rw [hconfirmed] at hcompleted
  by_cases hform : p.form = .new
  · have hmade : (p.requestOf sender updateTime).made = (p.requestOf sender updateTime).newTrack := if_pos hform
    rw [hmade] at hid hsector honset hplaceholder hsightings hlast hcompleted ⊢
    refine ⟨hid, hsector, hsightings, hplaceholder.trans ?_, honset.trans ?_, hlast.trans ?_, hcompleted⟩ <;>
      rw [hform] <;> rfl
  · have hmade : (p.requestOf sender updateTime).made = (p.requestOf sender updateTime).placeholderTrack :=
      if_neg hform
    rw [hmade] at hid hsector honset hplaceholder hsightings hlast hcompleted ⊢
    exact ⟨hid, hsector, hsightings, hplaceholder.trans (decide_eq_true hform).symm, honset.trans (if_neg hform).symm,
      hlast, hcompleted⟩

/-- R76: the place of a new track, as its outcome is stated. -/
theorem trackPlaced_of_slots {s t : State} (hinv : TracksInv s) {time : Time} {u : Track}
    (h : (∃ k : Nat, s.tracks[k]? = some none ∧ (∀ j : Nat, j < k → s.tracks[j]? ≠ some none) ∧
        t.tracks = s.tracks.set k (some u)) ∨
      (none ∉ s.tracks ∧ ∃ v, victim (liveTracks s.tracks) time = some v ∧
        t.tracks = replaceTrack s.tracks v.id (some u))) : TrackPlaced s t time u := by
  refine h.imp_right fun ⟨hfull, v, hv, ht⟩ => ⟨hfull, v, hv, ?_⟩
  exact slotChanged_of_replace hinv (mem_of_victim hv) ht

/-- Settles O35: the list that a JOIN leaves, then the frames of JOIN and UPDATE by what the table holds. -/
theorem joinPlaced : Obligations.JoinPlaced := by
  refine ⟨fun t x ht => ?_, fun s r brought sender stamp p harr hpeer hp hform hstale hinv => ?_⟩
  · obtain ⟨hlen, hstations, hplace⟩ := joined_placed ht x
    exact ⟨hlen, hstations, hplace, fun y hy => mem_withoutStation.1 hy,
      fun y hy hne => mem_withoutStation.2 ⟨hy, hne⟩, rfl, rfl, rfl⟩
  · have hevents : (p.requestOf sender (s.updateTime stamp)).events true = [.evaluation] :=
      if_neg fun h => hform h.2
    refine ⟨_, exec_sightingFrame harr hpeer hp hstale, fun tr htr => ?_, fun hnone hplace => ?_,
      fun hnone hno => sightingTaken_full hnone hno⟩
    · obtain ⟨hslot, hqlc, hraised⟩ :=
        sightingTaken_held (sender := sender) (stamp := stamp) hinv htr fun hnew => absurd hnew hform
      have hok := hinv.2.2 tr (State.trackOf_some htr).1
      rw [hevents] at hraised
      exact ⟨_, hslot, trackKept_onto hok hform, trackCompleted_onto hok, fun hj => sightingJoined_onto hok hj,
        fun hu => sightingUpdated_onto (r := p.requestOf sender (s.updateTime stamp)) hok hu, hqlc, _, hraised⟩
    · obtain ⟨hslots, hqlc, hraised⟩ := sightingTaken_created (sender := sender) (stamp := stamp) hnone hplace
      rw [hevents] at hraised
      exact ⟨_, trackPlaced_of_slots hinv hslots, trackCreated_made s p sender _, hqlc, _, hraised⟩

end Sys2Proof.Machine

/-! ### Victims and a peer's NEW (R64–R66, R71, R73, R76–R78, O33) -/

namespace Sys2Proof.Machine

/-! #### The oldest track (R77) -/

theorem timeDiff_inj {a b base : Time} : timeDiff a base = timeDiff b base ↔ a = b := by
  unfold timeDiff
  rw [BitVec.toInt_inj]
  exact ⟨fun h => by bv_omega, fun h => h ▸ rfl⟩

/-- Tracks whose last sighting times lie within 2^31 ms after `base`, no id twice. -/
def AgesInOrder (base : Time) (ts : List Track) : Prop :=
  (ts.map (·.id)).Nodup ∧ ∀ t ∈ ts, 0 ≤ timeDiff t.last base

section
variable {base : Time} {a b c : Track}

theorem Track.older_iff (ha : 0 ≤ timeDiff a.last base) (hb : 0 ≤ timeDiff b.last base) : a.older b = true ↔
    timeDiff a.last base < timeDiff b.last base ∨
      timeDiff a.last base = timeDiff b.last base ∧ idLower a.id b.id = true := by
  unfold Track.older
  rw [Bool.or_eq_true, Bool.and_eq_true, decide_eq_true_iff, earlier_iff_of_base ha hb, timeDiff_inj]

theorem Track.older_trans (ha : 0 ≤ timeDiff a.last base) (hb : 0 ≤ timeDiff b.last base)
    (hc : 0 ≤ timeDiff c.last base) (hab : a.older b = true) (hbc : b.older c = true) : a.older c = true := by
  rw [Track.older_iff ha hb] at hab
  rw [Track.older_iff hb hc] at hbc
  rw [Track.older_iff ha hc]
  obtain hlt | ⟨heq, hid⟩ := hab
  · exact .inl (hbc.elim hlt.trans fun h => h.1 ▸ hlt)
  · obtain hlt' | ⟨heq', hid'⟩ := hbc
    · exact .inl (heq ▸ hlt')
    · exact .inr ⟨heq.trans heq', idLower_trans hid hid'⟩

theorem Track.older_total (ha : 0 ≤ timeDiff a.last base) (hb : 0 ≤ timeDiff b.last base) (hid : a.id ≠ b.id)
    (hno : ¬a.older b = true) : b.older a = true := by
  rw [Track.older_iff ha hb] at hno
  rw [Track.older_iff hb ha]
  obtain ⟨hlt, hlow⟩ := not_or.1 hno
  obtain hlt' | heq := lt_or_eq_of_le (not_lt.1 hlt)
  · exact .inl hlt'
  · refine .inr ⟨heq, ?_⟩
    obtain hab | heq' | hba := idLower_cases a.id b.id
    · exact absurd ⟨heq.symm, hab⟩ hlow
    · exact absurd heq' hid
    · exact hba

end

section
variable {base : Time} {ts : List Track}

theorem AgesInOrder.filter (h : AgesInOrder base ts) (p : Track → Bool) : AgesInOrder base (ts.filter p) :=
  ⟨h.1.sublist (List.filter_sublist.map _), fun t ht => h.2 t (List.mem_filter.1 ht).1⟩

theorem oldest_none : oldest ts = none ↔ ts = [] := by
  cases ts with
  | nil => exact iff_of_true rfl rfl
  | cons t ts =>
    refine iff_of_false ?_ (List.cons_ne_nil _ _)
    unfold oldest
    split
    · exact nofun
    · split <;> exact nofun

theorem oldest_cons (t : Track) (h : ts ≠ []) : ∃ u, oldest ts = some u ∧
    oldest (t :: ts) = if u.older t then some u else some t := by
  obtain ⟨u, hu⟩ := Option.ne_none_iff_exists'.1 fun hno => h (oldest_none.1 hno)
  refine ⟨u, hu, ?_⟩
  conv_lhs => unfold oldest
  rw [hu]

/-- R77: the oldest track of a list, where the times are in order. -/
theorem oldest_least (h : AgesInOrder base ts) {v : Track} (hv : oldest ts = some v) :
    ∀ u ∈ ts, u = v ∨ v.older u = true := by
  induction ts generalizing v with
  | nil => exact nofun
  | cons t ts ih =>
    obtain ⟨hids, hages⟩ := h
    obtain ⟨hage, hages⟩ := List.forall_mem_cons.1 hages
    obtain ⟨hnew, hids⟩ := List.nodup_cons.1 hids
    by_cases hts : ts = []
    · subst hts
      obtain rfl := Option.some.inj hv
      exact fun u hu => .inl (List.mem_singleton.1 hu)
    · obtain ⟨u, hu, heq⟩ := oldest_cons t hts
      have hmem := mem_of_oldest hu
      have hleast := ih ⟨hids, hages⟩ hu
      rw [heq] at hv
      by_cases hut : u.older t = true
      · rw [if_pos hut] at hv
        obtain rfl := Option.some.inj hv
        exact List.forall_mem_cons.2 ⟨.inr hut, hleast⟩
      · rw [if_neg hut] at hv
        obtain rfl := Option.some.inj hv
        have htu : t.older u = true := Track.older_total (hages u hmem) hage
          (fun hid => hnew (List.mem_map.2 ⟨u, hmem, hid⟩)) hut
        refine List.forall_mem_cons.2 ⟨.inl rfl, fun x hx => .inr ?_⟩
        obtain rfl | hux := hleast x hx
        · exact htu
        · exact Track.older_trans hage (hages u hmem) (hages x hx) htu hux

/-! #### The victim (R77) -/

/-- R77: the tracks of the three kinds from which a victim is taken. -/
def fadingTracks (ts : List Track) : List Track := ts.filter fun t => decide (t.state = .fading)

def openPlaceholders (ts : List Track) : List Track := ts.filter fun t => decide (t.state = .opened) && t.placeholder

def openTracks (ts : List Track) : List Track := ts.filter fun t => decide (t.state = .opened) && !t.placeholder

theorem mem_fadingTracks {t : Track} : t ∈ fadingTracks ts ↔ t ∈ ts ∧ t.state = .fading := by
  simp [fadingTracks]

theorem mem_openPlaceholders {t : Track} :
    t ∈ openPlaceholders ts ↔ t ∈ ts ∧ t.state = .opened ∧ t.placeholder = true := by
  simp [openPlaceholders]

theorem mem_openTracks {t : Track} : t ∈ openTracks ts ↔ t ∈ ts ∧ t.state = .opened ∧ t.placeholder = false := by
  simp [openTracks]

/-- R77: where each kind is looked at only when the one before it is empty. -/
theorem victim_cases (ts : List Track) (time : Time) :
    (∃ v, oldest (fadingTracks ts) = some v ∧ victim ts time = some v) ∨
    (fadingTracks ts = [] ∧ ∃ v, oldest (openPlaceholders ts) = some v ∧ victim ts time = some v) ∨
    (fadingTracks ts = [] ∧ openPlaceholders ts = [] ∧ ∃ v, oldest (openTracks ts) = some v ∧
      victim ts time = if earlier v.last time then some v else none) ∨
    (fadingTracks ts = [] ∧ openPlaceholders ts = [] ∧ openTracks ts = [] ∧ victim ts time = none) := by
  unfold victim
  cases h1 : oldest (fadingTracks ts) with
  | some v =>
    refine .inl ⟨v, rfl, ?_⟩
    unfold fadingTracks at h1
    rw [h1]
  | none =>
    have hfading := oldest_none.1 h1
    unfold fadingTracks at h1
    cases h2 : oldest (openPlaceholders ts) with
    | some v =>
      refine .inr (.inl ⟨hfading, v, rfl, ?_⟩)
      unfold openPlaceholders at h2
      rw [h1, h2]
    | none =>
      have hplaceholders := oldest_none.1 h2
      unfold openPlaceholders at h2
      cases h3 : oldest (openTracks ts) with
      | some v =>
        refine .inr (.inr (.inl ⟨hfading, hplaceholders, v, rfl, ?_⟩))
        unfold openTracks at h3
        rw [h1, h2, h3]
      | none =>
        refine .inr (.inr (.inr ⟨hfading, hplaceholders, oldest_none.1 h3, ?_⟩))
        unfold openTracks at h3
        rw [h1, h2, h3]

theorem not_fading (h : fadingTracks ts = []) : ∀ u ∈ ts, u.state ≠ .fading := fun u hu hs => by
  have := mem_fadingTracks.2 ⟨hu, hs⟩
  rw [h] at this
  exact nomatch this

theorem not_placeholder (h : openPlaceholders ts = []) : ∀ u ∈ ts, u.state = .opened → u.placeholder = false :=
  fun u hu hs => Bool.eq_false_iff.2 fun hp => by
    have := mem_openPlaceholders.2 ⟨hu, hs, hp⟩
    rw [h] at this
    exact nomatch this

/-- R77: the victim, where the times are in order. -/
theorem victim_some (h : AgesInOrder base ts) {time : Time} {v : Track} (hv : victim ts time = some v) : v ∈ ts ∧
    ((v.state = .fading ∧ ∀ u ∈ ts, u.state = .fading → u = v ∨ v.older u = true) ∨
      (v.state = .opened ∧ v.placeholder = true ∧ (∀ u ∈ ts, u.state ≠ .fading) ∧
        ∀ u ∈ ts, u.state = .opened → u.placeholder = true → u = v ∨ v.older u = true) ∨
      (v.state = .opened ∧ v.placeholder = false ∧ earlier v.last time = true ∧
        (∀ u ∈ ts, u.state ≠ .fading ∧ (u.state = .opened → u.placeholder = false)) ∧
        ∀ u ∈ ts, u.state = .opened → u = v ∨ v.older u = true)) := by
  refine ⟨mem_of_victim hv, ?_⟩
  obtain ⟨w, hw, heq⟩ | ⟨hfading, w, hw, heq⟩ | ⟨hfading, hplaceholders, w, hw, heq⟩ | ⟨-, -, -, heq⟩ :=
    victim_cases ts time
  · obtain rfl := Option.some.inj (hv.symm.trans heq)
    obtain ⟨-, hs⟩ := mem_fadingTracks.1 (mem_of_oldest hw)
    exact .inl ⟨hs, fun u hu hus => oldest_least (h.filter _) hw u (mem_fadingTracks.2 ⟨hu, hus⟩)⟩
  · obtain rfl := Option.some.inj (hv.symm.trans heq)
    obtain ⟨-, hs, hp⟩ := mem_openPlaceholders.1 (mem_of_oldest hw)
    exact .inr (.inl ⟨hs, hp, not_fading hfading,
      fun u hu hus hup => oldest_least (h.filter _) hw u (mem_openPlaceholders.2 ⟨hu, hus, hup⟩)⟩)
  · obtain ⟨-, hs, hp⟩ := mem_openTracks.1 (mem_of_oldest hw)
    have hno := not_placeholder hplaceholders
    by_cases he : earlier w.last time = true
    · rw [if_pos he] at heq
      obtain rfl := Option.some.inj (hv.symm.trans heq)
      exact .inr (.inr ⟨hs, hp, he, fun u hu => ⟨not_fading hfading u hu, hno u hu⟩,
        fun u hu hus => oldest_least (h.filter _) hw u (mem_openTracks.2 ⟨hu, hus, hno u hu hus⟩)⟩)
    · rw [if_neg he] at heq
      exact nomatch hv.symm.trans heq
  · exact nomatch hv.symm.trans heq

/-- R77, R78: where there is no victim. -/
theorem victim_none (h : AgesInOrder base ts) {time : Time} (htime : 0 ≤ timeDiff time base)
    (hv : victim ts time = none) : ∀ u ∈ ts, u.state = .confirmed ∨
      (u.state = .opened ∧ u.placeholder = false ∧ earlier u.last time = false) := by
  have hstates : ∀ u : Track, u.state ≠ .fading → u.state = .confirmed ∨ u.state = .opened := fun u hu => by
    cases hs : u.state with
    | confirmed => exact .inl rfl
    | opened => exact .inr rfl
    | fading => exact absurd hs hu
  obtain ⟨w, -, heq⟩ | ⟨-, w, -, heq⟩ | ⟨hfading, hplaceholders, w, hw, heq⟩ | ⟨hfading, hplaceholders, hopen, -⟩ :=
    victim_cases ts time
  · exact nomatch hv.symm.trans heq
  · exact nomatch hv.symm.trans heq
  · have he : ¬earlier w.last time = true := fun he => nomatch hv.symm.trans (heq.trans (if_pos he))
    intro u hu
    refine (hstates u (not_fading hfading u hu)).imp_right fun hs => ?_
    have hp := not_placeholder hplaceholders u hu hs
    refine ⟨hs, hp, Bool.eq_false_iff.2 fun heu => he ?_⟩
    have hwage := h.2 w (mem_openTracks.1 (mem_of_oldest hw)).1
    have huage := h.2 u hu
    obtain rfl | hwu := oldest_least (h.filter _) hw u (mem_openTracks.2 ⟨hu, hs, hp⟩)
    · exact heu
    · rw [earlier_iff_of_base huage htime] at heu
      rw [earlier_iff_of_base hwage htime]
      exact ((Track.older_iff hwage huage).1 hwu).elim (fun hlt => hlt.trans heu) fun heq => heq.1 ▸ heu
  · intro u hu
    refine (hstates u (not_fading hfading u hu)).imp_right fun hs => ?_
    have hp := not_placeholder hplaceholders u hu hs
    have := mem_openTracks.2 ⟨hu, hs, hp⟩
    rw [hopen] at this
    exact nomatch this

end

/-! #### A peer's NEW (R64, R65) -/

section
variable {s : State} {sender : Nat} {stamp : Time} {p : SightingNotice}

/-- R65: the track that a NEW leaves of the placeholder it fills. -/
theorem placeholder_filled {tr : Track} (h : TrackOk tr) (hform : p.form = .new) :
    let u := ((p.requestOf sender (s.updateTime stamp)).onto tr).admitted s
    u.id = tr.id ∧ u.sector = p.sector ∧ u.onset = some p.time ∧ u.placeholder = false ∧
    u.last = laterTime tr.last p.time ∧ TrackCompleted s tr.confirmed u ∧
    (sightingOf tr.sightings sender = none → u.sightings = placeSighting tr.sightings (p.record sender)) ∧
    (∀ h, sightingOf tr.sightings sender = some h → u.sightings = placeSighting tr.sightings { p.record sender with
      speed := max h.speed p.speed, dust := maxDust h.dust p.dust, w := h.w || p.w
      updates := max h.updates p.updates }) := by
  obtain ⟨hid, hsector, honset, hplaceholder, hsightings, hlast, -⟩ := Track.admitted_frame (s := s)
    (Request.onto_shaped (r := p.requestOf sender (s.updateTime stamp)) h.shaped).1
  have hcompleted := trackCompleted_onto (s := s) (r := p.requestOf sender (s.updateTime stamp)) h
  have honto : (p.requestOf sender (s.updateTime stamp)).onto tr =
      tr.fill (p.requestOf sender (s.updateTime stamp)) := by
    unfold Request.onto
    rw [show (p.requestOf sender (s.updateTime stamp)).form = .new from hform]
  rw [honto] at hid hsector honset hplaceholder hsightings hlast hcompleted
  intro u
  have hu : u = (tr.fill (p.requestOf sender (s.updateTime stamp))).admitted s := congrArg (Track.admitted · s) honto
  rw [hu]
  have hstation : (p.requestOf sender (s.updateTime stamp)).sighting.station = sender := rfl
  refine ⟨hid, hsector, honset, hplaceholder, hlast, hcompleted, fun hnone => hsightings.trans ?_,
    fun x hx => hsightings.trans ?_⟩
  · unfold Track.fill
    rw [hstation, hnone]
    rfl
  · unfold Track.fill
    rw [hstation, hx]
    rfl

/-- R68: the update time has no part in a NEW. -/
theorem trackCreated_new {u : Track} {updateTime : Time} (h : TrackCreated s p sender updateTime u)
    (hform : p.form = .new) (time : Time) : TrackCreated s p sender time u := by
  obtain ⟨hid, hsector, hsightings, hplaceholder, honset, hlast, hcompleted⟩ := h
  have hno : p.form ≠ .update := by
    rw [hform]
    exact nofun
  exact ⟨hid, hsector, hsightings, hplaceholder, honset, hlast.trans ((if_neg hno).trans (if_neg hno).symm), hcompleted⟩

theorem noPlace_of_free {time : Time} (h : none ∈ s.tracks) : ¬NoPlace s time := fun hno => hno.1 h

/-- Settles O33: a peer's NEW by what the table holds, then the victim. -/
theorem peerNewTracked : Obligations.PeerNewTracked := by
  refine ⟨fun s r brought sender stamp p harr hpeer hp hform hstale => ?_,
    fun ts time base hids htime hages => ⟨fun v hv => victim_some ⟨hids, hages⟩ hv, victim_none ⟨hids, hages⟩ htime⟩⟩
  have hevents : (p.requestOf sender (s.updateTime stamp)).events true = [.evaluation, .preCheck p.id] :=
    if_pos ⟨rfl, hform⟩
  have hcreated := trackCreated_new (trackCreated_made s p sender (s.updateTime stamp)) hform p.time
  refine ⟨_, exec_sightingFrame harr hpeer hp hstale, fun hnone hfree => ?_, fun hinv hnone hfull hplace => ?_,
    fun hnone hno => sightingTaken_full hnone hno, fun tr hinv htr hplaceholder => ?_⟩
  · obtain ⟨hslots, hqlc, hraised⟩ :=
      sightingTaken_created (sender := sender) (stamp := stamp) hnone (noPlace_of_free hfree)
    rw [hevents] at hraised
    obtain ⟨k, hk, hlow, ht⟩ := hslots.resolve_right fun h => h.1 hfree
    have hslot := slotTrack_set hk hcreated.1 (s.trackOf_eq_slotTrack p.id ▸ hnone)
    refine ⟨_, .inl ⟨k, hk, hlow, ht⟩, hcreated, ?_, fun i hi => ?_, hqlc, _, hraised⟩
    · rw [State.trackOf_eq_slotTrack, ht]
      exact hslot.1
    · rw [State.trackOf_eq_slotTrack, State.trackOf_eq_slotTrack, ht]
      exact hslot.2 i hi
  · obtain ⟨hslots, hqlc, hraised⟩ := sightingTaken_created (sender := sender) (stamp := stamp) hnone hplace
    rw [hevents] at hraised
    exact ⟨_, trackPlaced_of_slots hinv hslots, hcreated, hqlc, _, hraised⟩
  · obtain ⟨hslot, hqlc, hraised⟩ :=
      sightingTaken_held (sender := sender) (stamp := stamp) hinv htr fun _ => hplaceholder
    rw [hevents] at hraised
    obtain ⟨hmem, hid⟩ := State.trackOf_some htr
    obtain ⟨huid, hsector, honset, hfilled, hlast, hcompleted, hnone, hsome⟩ :=
      placeholder_filled (s := s) (sender := sender) (stamp := stamp) (hinv.2.2 tr hmem) hform
    exact ⟨_, hslot, huid.trans hid, hsector, honset, hfilled, hlast, hcompleted, hnone, hsome, hqlc, _, hraised⟩

end

end Sys2Proof.Machine

/-! ### Rejected frames: what the checks find (R133–R138, R141, R160) -/

namespace Sys2Proof.Machine

/-! #### Payload fields (R138, R192) -/

theorem byteAt_lt (f : List Byte) (i : Nat) : byteAt f i < 256 := by
  unfold byteAt
  exact BitVec.isLt _

theorem formOf_cases (n : Nat) : (n ≤ 2 ∧ ∃ form, formOf n = some form ∧ (form = .new ↔ n = 0)) ∨
    (2 < n ∧ formOf n = none) := by
  obtain rfl | rfl | rfl | h : n = 0 ∨ n = 1 ∨ n = 2 ∨ 2 < n := by omega
  · exact .inl ⟨by omega, _, rfl, by simp⟩
  · exact .inl ⟨by omega, _, rfl, by simp⟩
  · exact .inl ⟨by omega, _, rfl, by simp⟩
  · refine .inr ⟨h, ?_⟩
    unfold formOf
    split <;> first | omega | rfl

theorem markAt_six (n : Nat) : markAt n 6 = decide (n / 64 % 2 = 1) := by
  unfold markAt
  rw [beq_eq_decide, show (2 : Nat) ^ 6 = 64 from rfl]

/-- R138, R192: the fields of a SIGHTING are in range. -/
def SightingFields (f : List Byte) : Prop :=
  1 ≤ byteAt f 7 ∧ byteAt f 7 ≤ 32 ∧ byteAt f 9 % 4 ≤ 2 ∧
    (byteAt f 9 % 4 = 0 → byteAt f 7 = byteAt f 2) ∧ byteAt f 14 ≤ 15 ∧ pairAt f 15 ≤ 600 ∧
    (byteAt f 9 / 64 % 2 = 1 → pairAt f 17 ≤ 1023) ∧
    (byteAt f 9 / 64 % 2 = 0 → pairAt f 17 = 0xFFFF) ∧ byteAt f 19 ≤ 3

theorem readSighting_cases (f : List Byte) :
    (SightingFields f ∧ ∃ p, readSighting f = some p ∧ p.time = timeAt f 10) ∨
    (¬SightingFields f ∧ readSighting f = none) := by
  obtain ⟨hle, form, hform, hnew⟩ | ⟨hlt, hnone⟩ := formOf_cases (byteAt f 9 % 4)
  · have hfields : (decide (1 ≤ byteAt f 7 ∧ byteAt f 7 ≤ 32) &&
        (decide (form ≠ .new) || decide (byteAt f 7 = byteAt f 2)) &&
        decide (byteAt f 14 ≤ 15) && decide (pairAt f 15 ≤ 600) &&
        (if markAt (byteAt f 9) 6 then decide (pairAt f 17 ≤ 1023) else decide (pairAt f 17 = absentCode)) &&
        decide (byteAt f 19 ≤ 3)) = true ↔ SightingFields f := by
      have habsent : absentCode = 0xFFFF := rfl
      have hdust : (if markAt (byteAt f 9) 6 = true then decide (pairAt f 17 ≤ 1023)
          else decide (pairAt f 17 = absentCode)) = true ↔ (byteAt f 9 / 64 % 2 = 1 → pairAt f 17 ≤ 1023) ∧
            (byteAt f 9 / 64 % 2 = 0 → pairAt f 17 = 0xFFFF) := by
        rw [markAt_six, habsent]
        by_cases hm : byteAt f 9 / 64 % 2 = 1
        · simp [hm]
        · have hm0 : byteAt f 9 / 64 % 2 = 0 := by omega
          simp [hm0]
      unfold SightingFields
      simp only [Bool.and_eq_true, Bool.or_eq_true, decide_eq_true_iff, hdust, ne_eq, hnew, ← imp_iff_not_or]
      tauto
    unfold readSighting
    rw [hform]
    simp only
    by_cases h : SightingFields f
    · rw [if_pos (hfields.2 h)]
      exact .inl ⟨h, _, rfl, rfl⟩
    · rw [if_neg fun hyes => h (hfields.1 hyes)]
      exact .inr ⟨h, rfl⟩
  · refine .inr ⟨fun h => ?_, ?_⟩
    · have := h.2.2.1
      omega
    · unfold readSighting
      rw [hnone]

theorem Level.ofNat_none {n : Nat} : Level.ofNat? n = none ↔ 3 < n := by
  obtain rfl | rfl | rfl | rfl | h : n = 0 ∨ n = 1 ∨ n = 2 ∨ n = 3 ∨ 3 < n := by omega
  · simp [Level.ofNat?]
  · simp [Level.ofNat?]
  · simp [Level.ofNat?]
  · simp [Level.ofNat?]
  · refine iff_of_true ?_ h
    unfold Level.ofNat?
    split <;> first | omega | rfl

/-- R138, R192: the levels of a zone list are all levels, or the list is not read. -/
theorem readPairs_none (f : List Byte) (n off : Nat) :
    readPairs f n off = none ↔ ¬∀ k, k < n → byteAt f (off + 1 + 2 * k) % 128 ≤ 3 := by
  induction n generalizing off with
  | zero => simp [readPairs]
  | succ n ih =>
    have hsplit : (∀ k, k < n + 1 → byteAt f (off + 1 + 2 * k) % 128 ≤ 3) ↔
        byteAt f (off + 1) % 128 ≤ 3 ∧ ∀ k, k < n → byteAt f (off + 2 + 1 + 2 * k) % 128 ≤ 3 := by
      rw [Nat.forall_lt_succ_left]
      refine and_congr Iff.rfl (forall_congr' fun k => forall_congr' fun _ => ?_)
      rw [show off + 1 + 2 * (k + 1) = off + 2 + 1 + 2 * k by omega]
    rw [hsplit]
    unfold readPairs
    cases hl : Level.ofNat? (byteAt f (off + 1) % 128) with
    | none =>
      have := Level.ofNat_none.1 hl
      simp only [true_iff]
      omega
    | some l =>
      have hle : byteAt f (off + 1) % 128 ≤ 3 := by
        refine Nat.not_lt.1 fun hlt => ?_
        rw [Level.ofNat_none.2 hlt] at hl
        exact nomatch hl
      cases hr : readPairs f n (off + 2) with
      | none => simpa [hle] using (ih (off + 2)).1 hr
      | some rest =>
        have : ∀ k, k < n → byteAt f (off + 2 + 1 + 2 * k) % 128 ≤ 3 := by
          by_contra hno
          rw [(ih (off + 2)).2 hno] at hr
          exact nomatch hr
        simpa [hle] using this

theorem signed8_range {n : Nat} (h : n < 256) : -64 ≤ signed8 n ∧ signed8 n ≤ 64 ↔ n ≤ 64 ∨ 192 ≤ n := by
  have hval : (BitVec.ofNat 8 n).toNat = n := Nat.mod_eq_of_lt h
  unfold signed8
  rw [BitVec.toInt_eq_toNat_cond, hval]
  split <;> omega

/-- R138, R192: the fields of a PRESENCE are in range. -/
def PresenceFields (f : List Byte) : Prop :=
  (byteAt f 7 = 4 ∨ byteAt f 7 = 5) ∧ byteAt f 8 % 4 ≤ 2 ∧
    (byteAt f 11 ≤ 64 ∨ 192 ≤ byteAt f 11) ∧ (pairAt f 13 ≤ 600 ∨ pairAt f 13 = 0xFFFF) ∧
    ∀ k, k < byteAt f 15 → byteAt f (17 + 2 * k) % 128 ≤ 3

theorem lockOf_none {n : Nat} : lockOf n = none ↔ 2 < n := by
  obtain rfl | rfl | rfl | h : n = 0 ∨ n = 1 ∨ n = 2 ∨ 2 < n := by omega
  · simp [lockOf]
  · simp [lockOf]
  · simp [lockOf]
  · refine iff_of_true ?_ h
    unfold lockOf
    split <;> first | omega | rfl

theorem readPresence_none {f : List Byte} (h : ¬PresenceFields f) : readPresence f = none := by
  unfold readPresence
  cases hl : lockOf (byteAt f 8 % 4) with
  | none => rfl
  | some l =>
    cases hp : readPairs f (byteAt f 15) 16 with
    | none => rfl
    | some pairs =>
      refine if_neg fun hfields => h ?_
      simp only [Bool.and_eq_true, decide_eq_true_iff] at hfields
      obtain ⟨⟨hstate, htrim⟩, hs60⟩ := hfields
      refine ⟨hstate, Nat.not_lt.1 fun hlt => ?_, (signed8_range (byteAt_lt f 11)).1 htrim, hs60, ?_⟩
      · rw [lockOf_none.2 hlt] at hl
        exact nomatch hl
      · by_contra hno
        rw [(readPairs_none f _ 16).2 hno] at hp
        exact nomatch hp

/-! #### Checks 6 and 7 (R138) -/

section
variable {s : State} {k : FrameKind} {f : List Byte} {arrival : Time}

/-- R138: check 6, by the kind of the frame. -/
theorem fieldsRight_iff (hk : frameKind (byteAt f 0) = some k) : FieldsRight f ↔
    (k = .presence → PresenceFields f) ∧ (k = .sighting → SightingFields f) ∧ (k = .zone → byteAt f 8 ≤ 3) := by
  rw [frameKind_eq_some] at hk
  unfold FieldsRight
  rw [hk]
  cases k <;> simp [FrameKind.code, PresenceFields, SightingFields]

theorem State.dispatch_unfielded (hk : frameKind (byteAt f 0) = some k) (h : ¬FieldsRight f) :
    s.dispatch k f arrival = s.reject 6 f := by
  rw [fieldsRight_iff hk] at h
  unfold State.dispatch
  cases k with
  | presence =>
    simp only
    rw [readPresence_none (by simpa using h)]
  | sighting =>
    simp only
    obtain ⟨hfields, -⟩ | ⟨-, hnone⟩ := readSighting_cases f
    · exact absurd ⟨nofun, fun _ => hfields, nofun⟩ h
    · rw [hnone]
  | zone =>
    have hlevel : Level.ofNat? (byteAt f 8) = none := Level.ofNat_none.2 (Nat.not_le.1 (by simpa using h))
    simp only
    rw [hlevel]

theorem State.dispatch_stale (hk : frameKind (byteAt f 0) = some k) (h : FieldsRight f) (hstale : TimeStale s f) :
    s.dispatch k f arrival = s.reject 7 f := by
  obtain ⟨hkind, htime⟩ := hstale
  obtain rfl : k = .sighting := Option.some.inj (hk.symm.trans (by rw [hkind]; rfl))
  obtain ⟨-, p, hp, hptime⟩ | ⟨hno, -⟩ := readSighting_cases f
  · have hout : s.stale p.time = true := by
      unfold State.stale
      rw [hptime, Bool.or_eq_true]
      exact htime
    unfold State.dispatch
    simp only
    rw [hp]
    exact if_pos hout
  · exact absurd (((fieldsRight_iff hk).1 h).2.1 rfl) hno

end

end Sys2Proof.Machine

/-! ### Rejected frames: OWN_NUMBER, and each check's outcome (R132–R141, R156, R160, R189, O34) -/

namespace Sys2Proof.Machine

/-! #### DUPLICATE_STATION newly set (R132, R156, R189) -/

section
variable {s : State}

theorem State.selection_duplicate (h : s.scs.faults.duplicateStation = true) : s.selection = none := by
  unfold State.selection
  refine List.find?_eq_none.2 fun e _ => ?_
  unfold State.eligible
  rw [h]
  simp

theorem State.follow_nothing (h : s.selection = none) : s.follow.qlc = { s.qlc with holdoff := none } := by
  cases hh : s.qlc.holdoff with
  | some hold => rw [State.follow_stops hh h, State.stopHoldoff_qlc]
  | none => rw [State.follow_rests hh (.inr h), ← hh]

theorem State.post_duplicate (h : s.scs.faults.duplicateStation = true) (cls : Nat) (n : Notice) :
    (s.post cls n).qlc = { s.qlc with holdoff := none } := by
  rw [State.post_eq_follow]
  exact State.follow_nothing (State.selection_duplicate h)

/-- R132, R156: the line once a frame in flight has been abandoned. -/
theorem State.abandon_qlc (s : State) :
    s.abandon.qlc = if s.qlc.inFlight.isSome then s.stopDriving.qlc else s.qlc := by
  unfold State.abandon
  cases s.qlc.inFlight with
  | none => rfl
  | some k =>
    simp only
    rw [State.releaseHeld_frame]
    rfl

theorem State.abandon_scs (s : State) : s.abandon.scs = s.scs := by
  unfold State.abandon
  split
  · rfl
  · rw [State.releaseHeld_frame]
    rfl

/-- R132, R156: with no post held, the abandoned entry returns with its attempts. -/
theorem State.abandon_entries {k : Key} (hk : s.qlc.inFlight = some k) (hheld : s.nq.held = none) :
    s.abandon.nq = { s.nq with
      entries := s.nq.entries.map fun x => if x.key = k then { x with inFlight := false } else x, held := none } := by
  unfold State.abandon
  rw [hk]
  simp only
  rw [State.releaseHeld_none (s := s.stopDriving.changeEntry k fun e => { e with inFlight := false }) hheld, ← hheld]
  rfl

/-- R187, R189: the flag set and the epoch marked. -/
def State.duplicated (s : State) : State :=
  s.mapScs fun c => { c with faults := c.faults.set .duplicateStation, quietEpoch := false }

/-- R132, R189: the state that a newly set DUPLICATE_STATION leaves before its post. -/
def State.silenced (s : State) : State := s.duplicated.abandon.follow

/-- R132, R156: the line once a frame in flight has been abandoned and no holdoff runs. -/
def State.silencedQlc (s : State) : Qlc :=
  { if s.qlc.inFlight.isSome then s.stopDriving.qlc else s.qlc with holdoff := none }

theorem State.silenced_line (s : State) : s.silenced.qlc = s.silencedQlc ∧
    s.silenced.nq = s.duplicated.abandon.nq ∧ s.silenced.scs.faults.duplicateStation = true := by
  have hset : s.duplicated.abandon.scs.faults.duplicateStation = true := by
    rw [State.abandon_scs]
    rfl
  unfold State.silenced
  refine ⟨?_, State.follow_nq _, ?_⟩
  · rw [State.follow_nothing (State.selection_duplicate hset), State.abandon_qlc]
    rfl
  · rw [(State.follow_only _).scs]
    exact hset

theorem State.faultEvent_duplicate_again (h : s.scs.faults.duplicateStation = true) :
    (s.faultEvent .duplicateStation).qlc = s.qlc ∧ (s.faultEvent .duplicateStation).nq = s.nq := by
  unfold State.faultEvent
  simp only
  rw [show s.scs.faults.get .duplicateStation = true from h]
  exact ⟨rfl, rfl⟩

/-- R189: a newly set DUPLICATE_STATION posts a PRESENCE where the health arm is set. -/
theorem State.faultEvent_duplicate_new (h : s.scs.faults.duplicateStation = false) :
    s.faultEvent .duplicateStation = s.silenced ∨
    s.faultEvent .duplicateStation = (s.silenced.mapScs fun c => { c with healthArm := false }).post 4 .presence := by
  unfold State.faultEvent
  simp only
  rw [show s.scs.faults.get .duplicateStation = false from h]
  simp only [Bool.false_eq_true, if_false]
  change (if s.silenced.scs.healthArm = true then _ else _) = _ ∨ (if s.silenced.scs.healthArm = true then _ else _) = _
  by_cases ha : s.silenced.scs.healthArm = true
  · exact .inr (if_pos ha)
  · exact .inl (if_neg ha)

theorem State.faultEvent_duplicate_qlc (h : s.scs.faults.duplicateStation = false) :
    (s.faultEvent .duplicateStation).qlc = s.silencedQlc := by
  obtain ⟨hqlc, -, hset⟩ := s.silenced_line
  obtain heq | heq := State.faultEvent_duplicate_new h
  · rw [heq, hqlc]
  · rw [heq, State.post_duplicate (s := s.silenced.mapScs fun c => { c with healthArm := false }) hset]
    exact congrArg (fun q : Qlc => { q with holdoff := none }) hqlc

/-- R132, R156, R189: the abandoned entry waits again. -/
theorem State.faultEvent_duplicate_entry (h : s.scs.faults.duplicateStation = false) {k : Key} {e : Entry}
    (hq : QueueSound none s.qlc.inFlight s.nq) (hheld : s.nq.held = none) (hk : s.qlc.inFlight = some k)
    (he : s.entryOf k = some e) :
    (s.faultEvent .duplicateStation).entryOf k = some { e with inFlight := false } := by
  obtain ⟨-, hnq, -⟩ := s.silenced_line
  have hentries := hnq.trans (State.abandon_entries (s := s.duplicated) hk hheld)
  rw [hk] at hq
  have hsound : QueueSound none none s.silenced.nq := by
    rw [hentries]
    exact hq.returned (q := s.nq) fun x hx _ => ⟨⟨rfl, rfl, rfl, rfl, rfl⟩, (hq.ranges x hx).2, rfl⟩
  have hback : { e with inFlight := false } ∈ s.silenced.nq.entries := by
    rw [hentries]
    exact List.mem_map.2 ⟨e, State.entryOf_mem he, if_pos (State.entryOf_key he)⟩
  have hkey : ({ e with inFlight := false } : Entry).key = k := State.entryOf_key (x := e) he
  have hentry : s.silenced.entryOf k = some { e with inFlight := false } := by
    have hunique := State.entryOf_of_unique hback fun y hy hyk => hsound.eq_of_key hy hback hyk
    rw [hkey] at hunique
    exact hunique
  obtain heq | heq := State.faultEvent_duplicate_new h
  · rw [heq, hentry]
  · rw [heq]
    have hkept := QueueSound.post_presence_entryOf (s := s.silenced.mapScs fun c => { c with healthArm := false })
      hsound (k := k) (.inr fun hno => nomatch hentry.symm.trans hno)
    exact hkept.trans hentry

end

end Sys2Proof.Machine

/-! ### Rejected frames: the seven checks (R123, R133–R141, R160, O34) -/

namespace Sys2Proof.Machine

section
variable {s : State} {sender : Nat} {k : FrameKind} {f : List Byte} {arrival : Time}

/-! #### The sender heard (R160) -/

theorem State.heard_own (hroster : RosterOk s) (hl : stationPresent s.tables sender = true)
    (hown : sender = s.scs.own) : s.heard sender = s := by
  obtain ⟨e, he, hself⟩ := hroster.entry hl
  unfold State.heard
  rw [he]
  exact if_pos (hself.2 hown)

/-- R160: a peer has been heard, whatever else of the frame touches neither roster nor tables. -/
theorem heardFrom_of_passed {t : State} (hroster : RosterOk s) (hl : stationPresent s.tables sender = true)
    (hown : sender ≠ s.scs.own) (hprt : t.prt = (s.framePassed sender).prt) (htables : t.tables = s.tables) :
    HeardFrom s t sender := by
  obtain ⟨-, -, -, -, hpassed, -, -⟩ := s.framePassed_fields sender
  have hrosterOf := State.rosterOf_congr (congrArg Prt.roster hprt) (htables.trans hpassed.symm)
  obtain ⟨e, he, hself⟩ := hroster.entry hl
  refine ⟨?_, fun n hn => ?_, e, he, ?_⟩
  · rw [hprt, s.framePassed_eq]
  · rw [hrosterOf, s.framePassed_rosterOf_other hn]
  · rw [hrosterOf, State.framePassed_rosterOf he (fun h => hown (hself.1 h)) hl]

/-- R138–R140: only a PRESENCE changes roster or common time. -/
theorem State.dispatch_prt (hk : k ≠ .presence) : (s.dispatch k f arrival).prt = s.prt ∧
    (s.dispatch k f arrival).tables = s.tables := by
  refine ⟨?_, by rw [s.dispatch_only k f arrival]⟩
  cases k with
  | presence => exact absurd rfl hk
  | sighting =>
    unfold State.dispatch
    simp only
    split
    · rfl
    · split
      · rfl
      · next p _ _ =>
        unfold State.dispatchSighting
        simp only
        generalize hr : s.admission _ true = a
        have hslots : OnlySlots s a.2 := hr ▸ State.admission_only _ _ _
        obtain ⟨answer, t⟩ := a
        cases answer <;> exact hslots.prt
  | zone =>
    unfold State.dispatch
    simp only
    split
    · rfl
    · split
      · rfl
      · split
        · rfl
        · split
          · rfl
          · exact (s.takeReport_only _ _ _).prt

/-- R133, R141: the record of a frame rejected after its sender has been heard. -/
theorem reject_framePassed (s : State) (sender cause : Nat) (f : List Byte) :
    (s.framePassed sender).reject cause f = { s.rejected f true cause with
      prt := (s.framePassed sender).prt, raised := s.raisedAfter ++ heardEvents s sender } := by
  rw [State.reject_eq, s.framePassed_eq]
  rfl

/-! #### OWN_NUMBER (R137, R189) -/

theorem OnlyFaults.frame {s t : State} (h : OnlyFaults s t) :
    t = { s with nq := t.nq, qlc := t.qlc, raised := t.raised, scs := t.scs } := by
  have hscs : t.scs = { s.scs with
      faults := t.scs.faults, healthArm := t.scs.healthArm, quietEpoch := t.scs.quietEpoch } := congrArg State.scs h
  unfold OnlyFaults at h
  rw [← hscs] at h
  exact h

theorem ownNumber_ok (v : State) : (v.faultEvent .duplicateStation) = { v with
      nq := (v.faultEvent .duplicateStation).nq, qlc := (v.faultEvent .duplicateStation).qlc
      raised := (v.faultEvent .duplicateStation).raised
      scs := { v.scs with
        faults := v.scs.faults.set .duplicateStation, quietEpoch := false
        healthArm := v.scs.healthArm && v.scs.faults.duplicateStation } } := by
  have hframe := (v.faultEvent_only .duplicateStation).frame
  rw [v.faultEvent_scs] at hframe
  exact hframe

/-- R137, R189: what DUPLICATE_STATION, newly set or not, leaves of the line's records. -/
theorem ownNumber_qlc (v : State) : ∃ holdoff idleIn inFlight qde frame ownRead,
    (v.faultEvent .duplicateStation).qlc = { v.qlc with
      holdoff := holdoff, idleIn := idleIn, inFlight := inFlight, qde := qde, frame := frame, ownRead := ownRead } := by
  cases hd : v.scs.faults.duplicateStation with
  | true => exact ⟨_, _, _, _, _, _, (State.faultEvent_duplicate_again hd).1⟩
  | false =>
    rw [State.faultEvent_duplicate_qlc hd]
    unfold State.silencedQlc
    cases v.qlc.inFlight.isSome with
    | true => exact ⟨_, _, _, _, _, _, rfl⟩
    | false => exact ⟨_, _, _, _, _, _, rfl⟩

theorem ownNumber_silences (v : State) (hd : v.scs.faults.duplicateStation = false) :
    (v.faultEvent .duplicateStation).qlc.inFlight = none ∧ (v.faultEvent .duplicateStation).qlc.holdoff = none ∧
    (v.qlc.inFlight.isSome = true → (v.faultEvent .duplicateStation).qlc.qde = false ∧
      (v.faultEvent .duplicateStation).qlc.frame = [] ∧ (v.faultEvent .duplicateStation).qlc.ownRead = none) := by
  rw [State.faultEvent_duplicate_qlc hd]
  unfold State.silencedQlc
  cases hs : v.qlc.inFlight.isSome with
  | true => exact ⟨rfl, rfl, fun _ => ⟨rfl, rfl, rfl⟩⟩
  | false => exact ⟨Option.not_isSome_iff_eq_none.1 (Bool.eq_false_iff.1 hs), rfl, nofun⟩

/-- R66, R141: a peer's NEW of a track held. -/
theorem duplicateNew_rejected {r : RxFrame} {brought : List Byte} {stamp : Time} {p : SightingNotice} {tr : Track}
    (harr : FrameArrives s r brought (frameBytes .sighting sender stamp (sightingBytes p)))
    (hl : stationPresent s.tables sender = true) (hown : sender ≠ s.scs.own)
    (hpresent : s.rosterState sender = some .present) (hp : SightingInRange sender p) (hform : p.form = .new)
    (hstale : s.stale p.time = false) (htr : s.trackOf p.id = some tr) (hplaceholder : tr.placeholder = false) :
    ∃ t, exec (.frameReceived brought) s = .next t ∧
      t.tracks = s.tracks ∧ t.raised = s.raisedAfter ∧ t.nq = s.nq ∧ t.zev = s.zev ∧
      t.qlc = s.qlc.afterReject 11 sender 0x32 := by
  obtain ⟨hzev, htracks, hnq, -⟩ := s.framePassed_fields sender
  have hquiet : heardEvents s sender = [] := if_neg fun h => by
    rw [hpresent] at h
    exact h.1.elim nofun nofun
  have hraised : (s.framePassed sender).raised = s.raisedAfter := by
    rw [s.framePassed_eq, hquiet, List.append_nil]
  refine ⟨_, exec_sightingFrame harr ⟨hl, hown, by rw [hpresent]; exact nofun⟩ hp hstale, ?_⟩
  rw [sightingTaken_duplicate htr hform hplaceholder]
  exact ⟨htracks, hraised, hnq, hzev, rfl⟩

end

/-! #### The checks in order -/

section
variable {s : State} {f : List Byte} {k : FrameKind} {arrival : Time}

/-- R137, R189: check 4 finds the own number. -/
theorem ownNumber_received (hroster : RosterOk s) (hl : stationPresent s.tables (byteAt f 2) = true)
    (hown : byteAt f 2 = s.scs.own) :
    let t := s.frameRead.advanceRotation.checkSender k f arrival
    t = { s with
      nq := t.nq, qlc := t.qlc, raised := t.raised
      scs := { s.scs with
        faults := s.scs.faults.set .duplicateStation, quietEpoch := false
        healthArm := s.scs.healthArm && s.scs.faults.duplicateStation } } ∧
    t.qlc.rejectCause = 4 ∧ t.qlc.rejectSender = f.getD 2 0 ∧ t.qlc.rejectKind = f.getD 0 0 ∧
    t.qlc.rx = none ∧ t.qlc.rotation = (s.qlc.rotation + 1) % 32 ∧
    (s.scs.faults.duplicateStation = true → t.nq = s.nq ∧ t.qlc = (s.rejected f true 4).qlc) ∧
    (s.scs.faults.duplicateStation = false →
      t.qlc.inFlight = none ∧ t.qlc.holdoff = none ∧
      (s.qlc.inFlight.isSome = true → t.qlc.qde = false ∧ t.qlc.frame = [] ∧ t.qlc.ownRead = none) ∧
      ∀ k e, QueueInv s → s.nq.held = none → s.qlc.inFlight = some k → s.entryOf k = some e →
        t.entryOf k = some { e with inFlight := false }) := by
  intro t
  have ht : t = (s.rejected f true 4).faultEvent .duplicateStation := by
    have hcheck := State.checkSender_own (s := s.frameRead.advanceRotation) (k := k) (arrival := arrival) hl hown
    rw [State.heard_own (s := s.frameRead.advanceRotation) hroster hl hown] at hcheck
    exact hcheck
  rw [ht]
  obtain ⟨holdoff, idleIn, inFlight, qde, frame, ownRead, hqlc⟩ := ownNumber_qlc (s.rejected f true 4)
  refine ⟨ownNumber_ok (s.rejected f true 4), by rw [hqlc]; rfl, by rw [hqlc]; rfl, by rw [hqlc]; rfl,
    by rw [hqlc]; rfl, by rw [hqlc]; rfl, fun hd => ?_, fun hd => ?_⟩
  · obtain ⟨h1, h2⟩ := State.faultEvent_duplicate_again (s := s.rejected f true 4) hd
    exact ⟨h2, h1⟩
  · obtain ⟨hflight, hholdoff, hstopped⟩ := ownNumber_silences (s.rejected f true 4) hd
    refine ⟨hflight, hholdoff, hstopped, fun k e hinv hheld hk he => ?_⟩
    exact State.faultEvent_duplicate_entry (s := s.rejected f true 4) hd (queueInv_iff.1 hinv).1 hheld hk he

/-- R137, R138, R160: checks 5 to 7 of a peer's frame. -/
theorem peerFrame_received (hroster : RosterOk s) (hl : stationPresent s.tables (byteAt f 2) = true)
    (hown : byteAt f 2 ≠ s.scs.own) (hk : frameKind (byteAt f 0) = some k) :
    let sender := byteAt f 2
    let t := s.frameRead.advanceRotation.checkSender k f arrival
    (byteAt f 0 ≠ 0x31 ∨ ¬FieldsRight f → HeardFrom s t sender) ∧
    (s.rosterState sender = some .mismatch → byteAt f 0 ≠ 0x31 →
      t = { s.rejected f true 5 with prt := t.prt, raised := s.raisedAfter ++ heardEvents s sender }) ∧
    (s.rosterState sender ≠ some .mismatch ∨ byteAt f 0 = 0x31 → ¬FieldsRight f →
      t = { s.rejected f true 6 with prt := t.prt, raised := s.raisedAfter ++ heardEvents s sender }) ∧
    (s.rosterState sender ≠ some .mismatch → FieldsRight f → TimeStale s f →
      t = { s.rejected f true 7 with prt := t.prt, raised := s.raisedAfter ++ heardEvents s sender }) := by
  intro sender t
  have hpresence : k = .presence ↔ byteAt f 0 = 0x31 := by
    rw [frameKind_eq_some.1 hk]
    cases k <;> simp [FrameKind.code]
  obtain ⟨-, -, -, -, htables, -, htime⟩ := s.framePassed_fields sender
  have hmismatch : k ≠ .presence → s.rosterState sender = some .mismatch →
      t = (s.framePassed sender).reject 5 f := fun hne hm =>
    State.checkSender_mismatch (s := s.frameRead.advanceRotation) hl hown hne hm
  have hpeer : (k = .presence ∨ s.rosterState sender ≠ some .mismatch) →
      t = (s.framePassed sender).dispatch k f arrival := fun hm =>
    State.checkSender_peer (s := s.frameRead.advanceRotation) hl hown hm
  have hrejected : ∀ cause, t = (s.framePassed sender).reject cause f →
      t = { s.rejected f true cause with prt := t.prt, raised := s.raisedAfter ++ heardEvents s sender } :=
    fun cause ht => by
      rw [reject_framePassed] at ht
      rw [ht]
  have hheard : t.prt = (s.framePassed sender).prt → t.tables = (s.framePassed sender).tables → HeardFrom s t sender :=
    fun hprt ht => heardFrom_of_passed hroster hl hown hprt (ht.trans htables)
  refine ⟨fun h => ?_, fun hm hne => hrejected 5 (hmismatch (fun hp => hne (hpresence.1 hp)) hm), fun hm hno => ?_,
    fun hm hfields hstale => ?_⟩
  · by_cases hm : k = .presence ∨ s.rosterState sender ≠ some .mismatch
    · have ht := hpeer hm
      by_cases hp : k = .presence
      · have hno := h.resolve_left fun hne => hne (hpresence.1 hp)
        rw [State.dispatch_unfielded hk hno] at ht
        exact hheard (by rw [ht]; rfl) (by rw [ht]; rfl)
      · obtain ⟨hprt, htab⟩ := State.dispatch_prt (s := s.framePassed sender) (f := f) (arrival := arrival) hp
        exact hheard (by rw [ht, hprt]) (by rw [ht, htab])
    · obtain ⟨hp, hmis⟩ := not_or.1 hm
      have ht := hmismatch hp (not_not.1 hmis)
      exact hheard (by rw [ht]; rfl) (by rw [ht]; rfl)
  · refine hrejected 6 ((hpeer (hm.symm.imp_left hpresence.2)).trans (State.dispatch_unfielded hk hno))
  · refine hrejected 7 ((hpeer (.inr hm)).trans (State.dispatch_stale hk hfields ?_))
    unfold TimeStale
    rw [htables, htime]
    exact hstale

end

/-- Settles O34: a NEW of a track held, then the checks in their order. -/
theorem duplicateNewRejected : Obligations.DuplicateNewRejected := by
  refine ⟨fun s r brought sender stamp p tr harr hl hown hpresent hp hform hstale htr hplaceholder =>
    duplicateNew_rejected harr hl hown hpresent hp hform hstale htr hplaceholder,
    fun s r brought f hends hroster => ⟨_, exec_frameEnds hends, fun hcrc => ?_, fun hcrc hform => ?_,
      fun hcrc hform hl => ?_, fun hcrc hform hl hown => ?_, fun hcrc hform hl hown => ?_⟩⟩
  · exact State.receive_unchecked hcrc
  · exact State.receive_unformed hcrc hform
  · obtain ⟨k, hk, hok⟩ := formRight_iff.1 hform
    rw [State.receive_passed hcrc hk hok]
    exact State.checkSender_unlisted (s := s.frameRead.advanceRotation) hl
  · obtain ⟨k, hk, hok⟩ := formRight_iff.1 hform
    rw [State.receive_passed hcrc hk hok]
    exact ownNumber_received hroster hl hown
  · obtain ⟨k, hk, hok⟩ := formRight_iff.1 hform
    rw [State.receive_passed hcrc hk hok]
    exact peerFrame_received hroster hl hown hk

end Sys2Proof.Machine

/-! ### The pre-check and its rewrite (R79, R151, R152, O39) -/

namespace Sys2Proof.Machine

/-! #### The rewrite (R79) -/

theorem Track.onlyOwn_some {t : Track} {own : Nat} {x : Sighting} (h : t.onlyOwn own = some x) :
    t.sightings = [x] ∧ x.station = own := by
  unfold Track.onlyOwn at h
  split at h
  · next y hy =>
    split at h
    · next hown =>
      obtain rfl := Option.some.inj h
      exact ⟨hy, hown⟩
    · exact nomatch h
  · exact nomatch h

theorem replaceTrack_comm {p q : TrackId} (hpq : p ≠ q) {c : Track} (hc : c.id = p) (o : Option Track)
    (ho : ∀ u ∈ o, u.id = p) (l : List (Option Track)) :
    replaceTrack (replaceTrack (replaceTrack l p (some c)) q none) p o =
      replaceTrack (replaceTrack l p o) q none := by
  induction l with
  | nil => rfl
  | cons y l ih =>
    cases y with
    | none => exact congrArg _ ih
    | some x =>
      simp only [replaceTrack_taken]
      by_cases hx : x.id = p
      · have hq : c.id ≠ q := hc.symm ▸ hpq
        rw [if_pos hx, if_pos hx, replaceTrack_taken, if_neg hq, replaceTrack_taken, if_pos hc, ih]
        cases o with
        | none => rfl
        | some u =>
          have hu : u.id ≠ q := (ho u rfl).symm ▸ hpq
          rw [replaceTrack_taken, if_neg hu]
      · rw [if_neg hx, if_neg hx]
        by_cases hxq : x.id = q
        · rw [replaceTrack_taken, if_pos hxq, replaceTrack_taken, if_pos hxq, replaceTrack_free, ih]
        · rw [replaceTrack_taken, if_neg hxq, replaceTrack_taken, if_neg hx, replaceTrack_taken, if_neg hxq, ih]

section
variable {s : State} {p q : TrackId} {tp tq : Track} {x : Sighting}

/-- R67, R79: the JOIN of the own sighting as a request. -/
def joinRequest (p : TrackId) (x : Sighting) : Request where
  form := .join
  id := p
  sector := 0
  sighting := x
  updateTime := x.time

/-- R79: the state that the rewrite leaves, `u` the peer's track with the own sighting. -/
def State.rewrittenTo (s : State) (p q : TrackId) (u : Track) : State := { s with
  tracks := replaceTrack (replaceTrack s.tracks p (some u)) q none
  gdu := s.gdu.follow p q, raised := s.raised ++ [.evaluation] ++ fadeEvents s u }

theorem State.rewrite_done (hp : s.trackOf p = some tp) (hq : s.trackOf q = some tq) (hok : TrackOk tp)
    (hx : tq.onlyOwn s.scs.own = some x) (hown : sightingOf tp.sightings s.scs.own = none) (hpq : p ≠ q) :
    s.rewrite p q = some (s.rewrittenTo p q ((tp.joined x).admitted s)) := by
  have hshape := hok.shaped.joined x
  have hid : (tp.joined x).id = p := (State.trackOf_some hp).2
  have hcid : ((tp.joined x).complete s.tables).id = p := (Track.complete_frame _ _).1.trans hid
  have hslot : slotTrack s.tracks p = some tp := s.trackOf_eq_slotTrack p ▸ hp
  have hput := State.fadeTrack_put (s := { s with
      tracks := replaceTrack (replaceTrack s.tracks p (some ((tp.joined x).complete s.tables))) q none
      gdu := s.gdu.follow p q, raised := s.raised ++ [.evaluation] })
    (put := fun c => replaceTrack (replaceTrack s.tracks p (some c)) q none) hshape rfl
    (by
      rw [hid, slotTrack_replace_other hpq (o := none) nofun]
      exact slotTrack_replace_same hslot hcid)
    fun u hu => by
      rw [hid] at hu ⊢
      refine replaceTrack_comm hpq hcid (some u) (fun v hv => ?_) _
      obtain rfl := Option.some.inj hv
      exact hu
  rw [hid] at hput
  unfold State.rewrite
  rw [hp, hq]
  simp only
  rw [hx, hown]
  exact congrArg some hput

theorem State.rewrittenTo_tracks (hp : s.trackOf p = some tp) (hpq : p ≠ q) {u : Track} (hu : u.id = p) :
    (s.rewrittenTo p q u).trackOf p = some u ∧ (s.rewrittenTo p q u).trackOf q = none ∧
    ∀ i, i ≠ p → i ≠ q → (s.rewrittenTo p q u).trackOf i = s.trackOf i := by
  have hslot : slotTrack s.tracks p = some tp := s.trackOf_eq_slotTrack p ▸ hp
  have htracks : ∀ i, (s.rewrittenTo p q u).trackOf i =
      slotTrack (replaceTrack (replaceTrack s.tracks p (some u)) q none) i := fun i =>
    State.trackOf_eq_slotTrack _ _
  refine ⟨?_, ?_, fun i hip hiq => ?_⟩
  · rw [htracks, slotTrack_replace_other hpq (o := none) nofun, slotTrack_replace_same hslot hu]
  · rw [htracks, slotTrack_remove_same]
  · rw [htracks, slotTrack_replace_other hiq (o := none) nofun, s.trackOf_eq_slotTrack]
    refine slotTrack_replace_other hip (fun v hv => ?_) _
    obtain rfl := Option.some.inj hv
    exact hu

/-! #### The entry chosen and rewritten (R151, R152) -/

/-- R151: what an entry's being a candidate says. -/
theorem State.candidateEntry_tracks {e : Entry} {d : Nat} (h : s.candidateEntry tp e = some (q, d)) :
    ∃ tq x, s.trackOf q = some tq ∧ tq.onlyOwn s.scs.own = some x ∧
      sightingOf tp.sightings s.scs.own = none := by
  unfold State.candidateEntry at h
  split at h
  · split at h
    · split at h
      · next tq htq =>
        split at h
        · next hc =>
          obtain ⟨_, -, heq⟩ := Option.map_eq_some_iff.1 h
          simp only [Bool.and_eq_true, Option.isNone_iff_eq_none] at hc
          obtain ⟨⟨hown, -⟩, hnone⟩ := hc
          obtain ⟨x, hx⟩ := Option.isSome_iff_exists.1 hown
          obtain rfl := (Prod.ext_iff.1 heq).1
          exact ⟨tq, x, htq, hx, hnone⟩
        · exact nomatch h
      · exact nomatch h
    · exact nomatch h
  · exact nomatch h
  · exact nomatch h

/-- R151, R152: the pre-check that finds a candidate. -/
theorem State.preCheck_rewrites (hp : s.trackOf p = some tp) (hnone : s.entryOf (.sighting p) = none) {d : Nat}
    (hbest : bestFit (s.nq.entries.filterMap fun e => s.candidateEntry tp e) = some (q, d)) {t : State}
    (ht : s.rewrite p q = some t) {e : Entry} (he : s.entryOf (.sighting q) = some e) :
    s.preCheck p = (t.setEntries (insertEntry (e.rewritten p) (removeOrder e.order s.nq.entries))).follow := by
  unfold State.preCheck
  rw [hp]
  simp only
  rw [hnone, if_neg (by simp), hbest]
  simp only
  rw [ht, he]

/-- R151: with no candidate nothing is done. -/
theorem State.preCheck_idle (hp : s.trackOf p = some tp) (h : ∀ e ∈ s.nq.entries, s.candidateEntry tp e = none) :
    s.preCheck p = s := by
  have hfits : s.nq.entries.filterMap (fun e => s.candidateEntry tp e) = [] := List.filterMap_eq_nil_iff.2 h
  unfold State.preCheck
  rw [hp]
  simp only
  rw [hfits]
  split <;> rfl

theorem removeOrder_length {e : Entry} {es : List Entry} (h : (es.map Entry.order).Nodup) (he : e ∈ es) :
    (removeOrder e.order es).length + 1 = es.length := by
  obtain ⟨before, after, rfl⟩ := List.append_of_mem he
  rw [removeOrder_split h, List.length_append, List.length_append, List.length_cons]
  omega

/-- R152: the queue with the entry `e` of Q rewritten into one of P. -/
theorem rewritten_queue (hq : QueueSound none s.qlc.inFlight s.nq) {e : Entry} (he : e ∈ s.nq.entries)
    {n : SightingNotice} (hn : e.notice = .sighting n) (hpq : p ≠ n.id) :
    let es := insertEntry (e.rewritten p) (removeOrder e.order s.nq.entries)
    e.rewritten p ∈ es ∧ (∀ y ∈ es, y.key ≠ .sighting n.id) ∧ es.length = s.nq.entries.length ∧
    ∀ y ∈ s.nq.entries, y ≠ e → y ∈ es := by
  have hkey : e.key = .sighting n.id := congrArg Notice.key hn
  refine ⟨mem_insertEntry.2 (.inl rfl), fun y hy hyk => ?_, ?_, fun y hy hne => ?_⟩
  · obtain rfl | hy := mem_insertEntry.1 hy
    · rw [Entry.rewritten_sighting hn] at hyk
      exact hpq (Key.sighting.inj hyk)
    · obtain ⟨hy, ho⟩ := mem_removeOrder.1 hy
      exact ho (congrArg Entry.order (hq.eq_of_key hy he (hyk.trans hkey.symm)))
  · rw [insertEntry_length, removeOrder_length hq.orders he]
  · exact mem_insertEntry.2 (.inr (mem_removeOrder.2 ⟨hy, fun ho => hne (hq.eq_of_order hy he ho)⟩))

/-- R152: the episode whose track was Q follows P. -/
theorem Gdu.follow_eq (g : Gdu) (p q : TrackId) :
    (∀ ep, g.mode = .episode ep → g.follow p q =
      { g with mode := .episode { ep with track := if ep.track = some q then some p else ep.track } }) ∧
    ((∀ ep, g.mode ≠ .episode ep) → g.follow p q = g) := by
  refine ⟨fun ep hep => ?_, fun hno => ?_⟩
  · unfold Gdu.follow
    rw [hep]
    simp only
    split
    · rfl
    · rw [← hep]
  · unfold Gdu.follow
    cases hm : g.mode with
    | episode ep => exact absurd hm (hno ep)
    | notReady => rfl
    | quiet => rfl
    | arming => rfl

end

theorem exec_preCheck {s : State} (h : s.pins.rstLow = false) (p : TrackId) :
    exec (.preCheck p) s = .next ((s.takeEvent fun e => decide (e = .preCheck p)).preCheck p) :=
  congrArg _ (State.unlessHeld_high (s := s.takeEvent _) h _)

/-- QLC's following drops no waiting event but the running out of a holdoff. -/
theorem State.expiryCheck_keeps_raised {s : State} {e : Instr} (he : isHoldoffExpiry e = false) (h : e ∈ s.raised) :
    e ∈ s.expiryCheck.raised := by
  unfold State.expiryCheck
  split
  · split
    · exact h
    · exact List.mem_append_left _ h
  · exact List.mem_filter.2 ⟨h, by rw [he]; rfl⟩

theorem State.follow_keeps_raised {s : State} {e : Instr} (he : isHoldoffExpiry e = false) (h : e ∈ s.raised) :
    e ∈ s.follow.raised := by
  unfold State.follow
  split
  · exact State.expiryCheck_keeps_raised (s := s.mapQlc _) he h
  · exact State.expiryCheck_keeps_raised (s := s.mapQlc _) he h
  · split
    · exact h
    · exact State.expiryCheck_keeps_raised (s := s.mapQlc _) he h
  · exact h

/-- R151, R152, R79: the pre-check with a candidate. -/
theorem State.preCheck_ok {s : State} {p : TrackId} {tp : Track} (hinv : TracksInv s) (hgood : QueueGood none s)
    (hp : s.trackOf p = some tp) (hnone : s.entryOf (.sighting p) = none)
    (hcands : ∃ e ∈ s.nq.entries, ∃ c, s.candidateEntry tp e = some c) :
    ∃ q d tq x u e n, e ∈ s.nq.entries ∧ s.candidateEntry tp e = some (q, d) ∧
      (∀ y ∈ s.nq.entries, ∀ c, s.candidateEntry tp y = some c → FitsBefore (q, d) c) ∧
      e.notice = .sighting n ∧ n.id = q ∧ n.form = .new ∧
      e.rewritten p ∈ (s.preCheck p).nq.entries ∧ (s.preCheck p).entryOf (.sighting q) = none ∧
      (s.preCheck p).nq.entries.length = s.nq.entries.length ∧
      (∀ y ∈ s.nq.entries, y ≠ e → y ∈ (s.preCheck p).nq.entries) ∧
      s.trackOf q = some tq ∧ tq.sightings = [x] ∧ x.station = s.scs.own ∧
      (s.preCheck p).trackOf q = none ∧ (s.preCheck p).trackOf p = some u ∧ TrackKept tp u ∧ SightingJoined tp x u ∧
      TrackCompleted s tp.confirmed u ∧ (∀ i, i ≠ p → i ≠ q → (s.preCheck p).trackOf i = s.trackOf i) ∧
      (s.preCheck p).gdu = s.gdu.follow p q ∧ .evaluation ∈ (s.preCheck p).raised ∧
      s.preCheck p = { s with
        tracks := (s.preCheck p).tracks, gdu := (s.preCheck p).gdu, raised := (s.preCheck p).raised
        nq := { s.nq with entries := (s.preCheck p).nq.entries }
        qlc := { s.qlc with
          holdoff := (s.preCheck p).qlc.holdoff, seqReg := (s.preCheck p).qlc.seqReg
          drawn := (s.preCheck p).qlc.drawn } } := by
  obtain ⟨e0, he0, c0, hc0⟩ := hcands
  obtain ⟨⟨q, d⟩, hbest⟩ : ∃ c, bestFit (s.nq.entries.filterMap fun e => s.candidateEntry tp e) = some c :=
    Option.ne_none_iff_exists'.1 fun hnofit => by
      rw [bestFit_eq_none, List.filterMap_eq_nil_iff] at hnofit
      exact nomatch (hnofit e0 he0).symm.trans hc0
  obtain ⟨e, he, hcand⟩ := List.mem_filterMap.1 (mem_of_bestFit hbest)
  obtain ⟨n, hn, hform, rfl, -⟩ := State.candidateEntry_some hcand
  obtain ⟨tq, x, htq, hx, hown⟩ := State.candidateEntry_tracks hcand
  obtain ⟨hsightings, hstation⟩ := Track.onlyOwn_some hx
  have hpq : p ≠ n.id := fun heq => by
    obtain rfl : tp = tq := Option.some.inj (hp.symm.trans (heq ▸ htq))
    rw [hsightings] at hown
    simp [sightingOf, hstation] at hown
  have hkey : e.key = .sighting n.id := congrArg Notice.key hn
  have hentry : s.entryOf (.sighting n.id) = some e := by
    rw [← hkey]
    exact State.entryOf_of_unique he fun y hy hyk => hgood.1.eq_of_key hy he hyk
  have hok := hinv.2.2 tp (State.trackOf_some hp).1
  have hrewrite := State.rewrite_done hp htq hok hx hown hpq
  obtain ⟨hin, hgone, hlen, hkept⟩ := rewritten_queue hgood.1 he hn hpq
  obtain ⟨u, hu⟩ : ∃ u, u = (tp.joined x).admitted s := ⟨_, rfl⟩
  have htrackKept : TrackKept tp u := hu ▸ trackKept_onto (r := joinRequest p x) hok nofun
  have hjoined : SightingJoined tp x u := hu ▸ sightingJoined_onto (r := joinRequest p x) hok rfl
  have hcompleted : TrackCompleted s tp.confirmed u := hu ▸ trackCompleted_onto (r := joinRequest p x) hok
  rw [← hu] at hrewrite
  obtain ⟨hthere, haway, hothers⟩ :=
    State.rewrittenTo_tracks hp hpq (htrackKept.1.trans (State.trackOf_some hp).2)
  obtain ⟨w, hw⟩ : ∃ w, w = (s.rewrittenTo p n.id u).setEntries
    (insertEntry (e.rewritten p) (removeOrder e.order s.nq.entries)) := ⟨_, rfl⟩
  have hdone : s.preCheck p = w.follow := hw ▸ State.preCheck_rewrites hp hnone hbest hrewrite hentry
  have honly := w.follow_only
  have hnq : (s.preCheck p).nq = { s.nq with
      entries := insertEntry (e.rewritten p) (removeOrder e.order s.nq.entries) } := by
    rw [hdone, State.follow_nq, hw]
    rfl
  have htrackOf : ∀ i, (s.preCheck p).trackOf i = (s.rewrittenTo p n.id u).trackOf i :=
    State.trackOf_congr (by rw [hdone, honly.tracks, hw]; rfl)
  refine ⟨n.id, d, tq, x, u, e, n, he, hcand,
    fun y hy c hc => bestFit_before hbest c (List.mem_filterMap.2 ⟨y, hy, hc⟩), hn, rfl, hform, ?_, ?_, ?_,
    fun y hy hne => ?_, htq, hsightings, hstation, ?_, ?_, htrackKept, hjoined, hcompleted, fun i hip hiq => ?_, ?_, ?_,
    ?_⟩
  · rw [hnq]
    exact hin
  · refine State.entryOf_none.2 ?_
    rw [hnq]
    exact hgone
  · rw [hnq]
    exact hlen
  · rw [hnq]
    exact hkept y hy hne
  · rw [htrackOf, haway]
  · rw [htrackOf, hthere]
  · rw [htrackOf, hothers i hip hiq]
  · rw [hdone, honly.gdu, hw]
    rfl
  · rw [hdone]
    refine State.follow_keeps_raised rfl ?_
    rw [hw]
    exact List.mem_append_left _ (List.mem_append_right _ (List.mem_singleton.2 rfl))
  · rw [hnq, hdone]
    refine w.follow_frame.trans ?_
    rw [honly.tracks, honly.gdu, hw]
    rfl

/-- Settles O39: the best candidate's entry rewritten, and its track with it. -/
theorem preCheckRewrites : Obligations.PreCheckRewrites := by
  intro s p tp hrst hinv hqueue hp hnone
  refine ⟨_, exec_preCheck hrst p, fun hcands => ?_, fun hno => ?_⟩
  · obtain ⟨q, d, tq, x, u, e, n, he, hcand, hbest, hn, hid, hform, hin, hgone, hlen, hkept, htq, hsightings, hstation,
      haway, hthere, htrackKept, hjoined, hcompleted, hothers, hgdu, hraised, hframe⟩ :=
      State.preCheck_ok (s := s.takeEvent fun e => decide (e = .preCheck p)) hinv (queueInv_iff.1 hqueue) hp hnone
        hcands
    refine ⟨q, d, tq, x, u, e, _, n, he, hcand, hbest, hn, hid, hform, Entry.rewritten_sighting hn p, hin, hgone, hlen,
      hkept, htq, hsightings, hstation, haway, hthere, htrackKept, hjoined, hcompleted, hothers, hgdu.trans ?_, hraised,
      hframe⟩
    obtain ⟨hepisode, hother⟩ := s.gdu.follow_eq p q
    cases hm : s.gdu.mode with
    | episode ep => exact hepisode ep hm
    | notReady =>
      exact (hother (by rw [hm]; exact nofun)).trans (congrArg (fun m => { s.gdu with mode := m }) hm)
    | quiet =>
      exact (hother (by rw [hm]; exact nofun)).trans (congrArg (fun m => { s.gdu with mode := m }) hm)
    | arming =>
      exact (hother (by rw [hm]; exact nofun)).trans (congrArg (fun m => { s.gdu with mode := m }) hm)
  · exact State.preCheck_idle (s := s.takeEvent fun e => decide (e = .preCheck p)) hp hno

end Sys2Proof.Machine

/-! ### The detector's sample: modes, fits and posts (R41–R45, R49–R52) -/

namespace Sys2Proof.Machine

/-! #### The state that GDU's sample finds -/

section
variable (s : State) (vane : BitVec 4) (lamp : Bool)

/-- R19, R37: what a sample has changed when GDU takes it. -/
theorem State.sampleHeard_fields :
    (s.sampleHeard vane lamp).tracks = s.tracks ∧ (s.sampleHeard vane lamp).tables = s.tables ∧
    (s.sampleHeard vane lamp).prt = s.prt ∧ (s.sampleHeard vane lamp).sfe = s.sampleSfe vane lamp ∧
    (s.sampleHeard vane lamp).scs.own = s.scs.own ∧ (s.sampleHeard vane lamp).scs.station = s.scs.station := by
  have h := s.sampleHeard_faults vane lamp
  unfold OnlyFaults at h
  rw [h]
  exact ⟨rfl, rfl, rfl, rfl, rfl, rfl⟩

/-- R42: a sample qualifies by the speeds that SFE then shows. -/
theorem State.sample_qualifies : (s.sampleHeard vane lamp).qualifies (s.sampleHeard vane lamp).sampleRecord = true ↔
    qualifiesFor s (s.sample vane lamp).sfe := by
  obtain ⟨-, htables, -, hsfe, hown, -⟩ := s.sampleHeard_fields vane lamp
  have hfloor : (s.sampleHeard vane lamp).gustFloor = s.gustFloor := by
    unfold State.gustFloor
    rw [htables, hown]
  have hratio : (s.sampleHeard vane lamp).onsetRatio = s.onsetRatio := by
    unfold State.onsetRatio
    rw [htables, hown]
  unfold State.qualifies qualifiesFor State.sampleRecord
  simp only
  rw [hfloor, hratio, hsfe, s.sample_sfe, Bool.and_eq_true, decide_eq_true_iff, decide_eq_true_iff]

theorem State.sample_ready : (s.sampleHeard vane lamp).sampleRecord.ready = true ↔
    s.sfe.anemoIn = true ∧ (s.sample vane lamp).sfe.warming = 240 := by
  obtain ⟨-, -, -, hsfe, -, -⟩ := s.sampleHeard_fields vane lamp
  have hin : (s.sampleSfe vane lamp).anemoIn = s.sfe.anemoIn := by rw [s.sampleSfe_eq]; rfl
  unfold State.sampleRecord
  simp only
  rw [hsfe, s.sample_sfe, Bool.and_eq_true, decide_eq_true_iff, hin]
  rfl

/-- R19: the sample record is what SFE shows after the sample. -/
theorem State.sample_record : (s.sampleHeard vane lamp).sampleRecord.stamp = s.prt.time ∧
    (s.sampleHeard vane lamp).sampleRecord.g3 = (s.sample vane lamp).sfe.g3 ∧
    (s.sampleHeard vane lamp).sampleRecord.sector = (s.sample vane lamp).sfe.accepted ∧
    (s.sampleHeard vane lamp).sampleRecord.dust = (s.sample vane lamp).sfe.dustIndex := by
  obtain ⟨-, -, hprt, hsfe, -, -⟩ := s.sampleHeard_fields vane lamp
  unfold State.sampleRecord
  simp only
  rw [hsfe, s.sample_sfe]
  exact ⟨congrArg Prt.time hprt, rfl, rfl, rfl⟩

end

/-! #### A notice posted by the detector (R49, R52, R55) -/

/-- R145, R189: a post of PRESENCE into a queue with room places it or leaves the entries. -/
theorem State.post_presence_entries {s : State} (hn : (s.nq.entries.map Entry.order).Nodup)
    (hroom : s.nq.entries.length < Config.queueSize) : (s.post 4 .presence).nq.entries = s.nq.entries ∨
      (s.post 4 .presence).nq.entries = insertEntry (s.postEntry 4 .presence) s.nq.entries := by
  cases hx : s.entryOf .presence with
  | none => exact .inr (State.post_presence_new hx hroom 4)
  | some x =>
    refine .inl ?_
    cases hf : x.inFlight with
    | false => rw [State.post_presence_waiting hn hx hf]
    | true => rw [State.post_inFlight (State.dropsPost_presence s) hx hf]

section
variable {s : State} (vane : BitVec 4) (lamp : Bool)

/-- R189: the faults of a sample post a PRESENCE at most. -/
theorem State.sampleHeard_room (hinv : QueueInv s) (hroom : s.nq.entries.length < 7) {k : Key} (hk : k ≠ .presence)
    (hnone : s.entryOf k = none) : (s.sampleHeard vane lamp).nq.entries.length < Config.queueSize ∧
      (s.sampleHeard vane lamp).entryOf k = none := by
  have hsize : Config.queueSize = 8 := rfl
  have hentries : (s.sampleHeard vane lamp).nq.entries = s.nq.entries ∨
      ∃ e : Entry, e.key = .presence ∧ (s.sampleHeard vane lamp).nq.entries = insertEntry e s.nq.entries := by
    have hfaulted := s.sampleHeard_faulted vane lamp
    by_cases hquiet : s.scs.healthArm = false ∨ (s.sampleHeard vane lamp).scs.faults = s.scs.faults
    · exact .inl (congrArg Nq.entries (hfaulted.unposted hquiet))
    · obtain ⟨harm, hnew⟩ := not_or.1 hquiet
      obtain ⟨v, -, hvnq, hnq⟩ := hfaulted.posted (Bool.not_eq_false _ ▸ harm) hnew
      have hvnq : v.nq = s.nq := hvnq
      have horders : (v.nq.entries.map Entry.order).Nodup := hvnq ▸ (queueInv_iff.1 hinv).1.orders
      rw [hnq, ← hvnq]
      refine (State.post_presence_entries horders (by rw [hvnq]; omega)).imp_right fun heq => ?_
      exact ⟨v.postEntry 4 .presence, rfl, heq⟩
  obtain heq | ⟨e, he, heq⟩ := hentries
  · refine ⟨by rw [heq]; omega, ?_⟩
    unfold State.entryOf
    rw [heq]
    exact hnone
  · refine ⟨by rw [heq, insertEntry_length]; omega, ?_⟩
    unfold State.entryOf
    rw [heq, find_insertEntry_other (decide_eq_false fun h => hk (h.symm.trans he))]
    exact hnone

/-- R145: a detector's notice of a new key, the queue as the sample found it. -/
theorem postedAnew_sampled {t y : State} {cls : Nat} {n : Notice} (hinv : QueueInv s)
    (hroom : s.nq.entries.length < 7) (hk : n.key ≠ .presence) (hnone : s.entryOf n.key = none)
    (hnq : y.nq = (s.sampleHeard vane lamp).nq) (hprt : y.prt = s.prt) (hstation : y.scs.station ≠ .joining)
    (ht : t.nq = (y.post cls n).nq) : PostedAnew s t n cls := by
  obtain ⟨hlen, hfree⟩ := State.sampleHeard_room vane lamp hinv hroom hk hnone
  have hdrops : y.dropsPost n = false := State.dropsPost_false fun h => absurd h hstation
  have hpost := State.post_new (cls := cls) hdrops (by unfold State.entryOf; rw [hnq]; exact hfree) (by rw [hnq]; exact hlen)
  refine ⟨y.postEntry cls n, ?_, rfl, rfl, congrArg Prt.time hprt, rfl, rfl⟩
  rw [ht, hpost]
  exact mem_insertEntry.2 (.inl rfl)

end

/-! #### A fresh sequence (R51) -/

section
variable {slots : List (Option Track)} {own : Nat}

theorem slotTrack_isSome {id : TrackId} : (slotTrack slots id).isSome = true ↔ ∃ t ∈ liveTracks slots, t.id = id := by
  rw [Option.isSome_iff_ne_none, ne_eq, slotTrack_none]
  simp

/-- R51: the sequence taken is the first that no own track holds. -/
theorem freshSeq_some {fuel n v : Nat} (hn : n < 256) (h : freshSeq slots own fuel n = some v) :
    ∃ j, j < fuel ∧ v = (n + j) % 256 ∧ slotTrack slots ⟨own, v⟩ = none ∧
      ∀ i, i < j → (slotTrack slots ⟨own, (n + i) % 256⟩).isSome = true := by
  induction fuel generalizing n with
  | zero => exact nomatch h
  | succ fuel ih =>
    unfold freshSeq at h
    by_cases hheld : ∃ t ∈ liveTracks slots, t.id = ⟨own, n⟩
    · rw [if_pos (by simpa using hheld)] at h
      obtain ⟨j, hj, hv, hfree, hbefore⟩ := ih (Nat.mod_lt _ (by decide)) h
      refine ⟨j + 1, by omega, by omega, hfree, fun i hi => ?_⟩
      cases i with
      | zero =>
        rw [Nat.add_zero, Nat.mod_eq_of_lt hn]
        exact slotTrack_isSome.2 hheld
      | succ i =>
        have := hbefore i (by omega)
        rwa [show ((n + 1) % 256 + i) % 256 = (n + (i + 1)) % 256 by omega] at this
    · rw [if_neg (by simpa using hheld)] at h
      obtain rfl := Option.some.inj h
      refine ⟨0, Nat.succ_pos _, (Nat.mod_eq_of_lt hn).symm, slotTrack_none.2 fun t ht hid => hheld ⟨t, ht, hid⟩, nofun⟩

theorem freshSeq_none {fuel n : Nat} (hn : n < 256) (h : freshSeq slots own fuel n = none) :
    ∀ i, i < fuel → ∃ t ∈ liveTracks slots, t.id = ⟨own, (n + i) % 256⟩ := by
  induction fuel generalizing n with
  | zero => exact fun i hi => absurd hi (Nat.not_lt_zero i)
  | succ fuel ih =>
    unfold freshSeq at h
    by_cases hheld : ∃ t ∈ liveTracks slots, t.id = ⟨own, n⟩
    · rw [if_pos (by simpa using hheld)] at h
      intro i hi
      cases i with
      | zero =>
        rw [Nat.add_zero, Nat.mod_eq_of_lt hn]
        exact hheld
      | succ i =>
        have := ih (Nat.mod_lt _ (by decide)) h i (by omega)
        rwa [show ((n + 1) % 256 + i) % 256 = (n + (i + 1)) % 256 by omega] at this
    · rw [if_neg (by simpa using hheld)] at h
      exact nomatch h

theorem liveTracks_length_le (l : List (Option Track)) : (liveTracks l).length ≤ l.length :=
  List.length_filterMap_le _ _

/-- R51: the own ids in the order in which a fresh sequence is looked for. -/
def ownIds (own n : Nat) : List TrackId := (List.range 256).map fun i => ⟨own, (n + i) % 256⟩

theorem ownIds_nodup (own n : Nat) : (ownIds own n).Nodup := by
  refine List.Nodup.map_on (fun i hi j hj heq => ?_) List.nodup_range
  have hi := List.mem_range.1 hi
  have hj := List.mem_range.1 hj
  have hseq := congrArg TrackId.seq heq
  simp only at hseq
  omega

/-- R51, R76: sixteen slots do not hold all own sequences. -/
theorem freshSeq_found (h : slots.length = Config.trackSlots) (n : Nat) :
    ∃ v, freshSeq slots own 256 (n % 256) = some v := by
  refine Option.ne_none_iff_exists'.1 fun hnone => ?_
  have hall := freshSeq_none (Nat.mod_lt n (by decide)) hnone
  have hsub : ownIds own (n % 256) ⊆ (liveTracks slots).map (·.id) := fun id hid => by
    obtain ⟨i, hi, rfl⟩ := List.mem_map.1 hid
    obtain ⟨t, ht, hid⟩ := hall i (List.mem_range.1 hi)
    exact List.mem_map.2 ⟨t, ht, hid⟩
  have hlen := ((ownIds_nodup own _).subperm hsub).length_le
  have hcount : (ownIds own (n % 256)).length = 256 := (List.length_map _).trans List.length_range
  have hlive := liveTracks_length_le slots
  have hslots : Config.trackSlots = 16 := rfl
  rw [hcount, List.length_map] at hlen
  omega

end

end Sys2Proof.Machine

/-! ### Onsets and updates of the detector (R43–R56, R78) -/

namespace Sys2Proof.Machine

/-! #### The association (R46–R48) -/

theorem State.associate_congr {s t : State} (htracks : t.tracks = s.tracks) (htables : t.tables = s.tables)
    (hown : t.scs.own = s.scs.own) (sector : Nat) (onset : Time) : t.associate sector onset = s.associate sector onset := by
  unfold State.associate
  rw [htracks, htables, hown]

theorem State.associate_held {s : State} (hinv : TracksInv s) {sector : Nat} {onset : Time} {id : TrackId}
    (h : s.associate sector onset = some id) : ∃ tr, s.trackOf id = some tr := by
  unfold State.associate at h
  obtain ⟨⟨i, d⟩, hbest, rfl⟩ := Option.map_eq_some_iff.1 h
  obtain ⟨t, ht, hd⟩ := List.mem_filterMap.1 (mem_of_bestFit hbest)
  obtain ⟨_, -, heq⟩ := Option.map_eq_some_iff.1 hd
  obtain rfl := (Prod.ext_iff.1 heq).1
  exact ⟨t, State.trackOf_eq hinv.2.1 (List.mem_filter.1 ht).1⟩

theorem State.post_keeps_raised {s : State} {e : Instr} (he : isHoldoffExpiry e = false) (h : e ∈ s.raised) (cls : Nat)
    (n : Notice) : e ∈ (s.post cls n).raised := by
  rw [State.post_eq_follow]
  exact State.follow_keeps_raised (s := { s with nq := (s.post cls n).nq }) he h

theorem Request.evaluation_mem (r : Request) (peer : Bool) : .evaluation ∈ r.events peer := by
  unfold Request.events
  split <;> simp

/-- `t` has the queue of `s` with one post of `n` with class `cls`. -/
def PostOf (s t : State) (n : Notice) (cls : Nat) : Prop :=
  ∃ y : State, y.nq = s.nq ∧ y.prt = s.prt ∧ y.scs = s.scs ∧ t.nq = (y.post cls n).nq

/-! #### The local sighting (R49–R52, R78) -/

section
variable {s : State} {e : Episode} {id : TrackId} {tr : Track}

/-- R50: the JOIN of the associated track. -/
theorem State.localJoin_ok (hinv : TracksInv s) (ht : s.trackOf id = some tr) :
    let q := e.request s.scs.own id .join e.onset
    let t := s.localJoin e id
    t.gdu = { s.gdu with mode := .episode { e with track := some id, recorded := true } } ∧
    t.tracks = replaceTrack s.tracks id (some ((q.onto tr).admitted s)) ∧ .evaluation ∈ t.raised ∧
    PostOf s t (e.notice id .join) 3 := by
  intro q t
  have hadmission := State.admission_held (r := q) hinv ht nofun false
  obtain ⟨w, hw⟩ : ∃ w, w = (s.admission q false).2.setMode (.episode { e with track := some id, recorded := true }) :=
    ⟨_, rfl⟩
  have htw : t = w.post 3 (e.notice id .join) := hw ▸ rfl
  rw [hadmission] at hw
  have honly := w.post_only 3 (e.notice id .join)
  rw [htw]
  refine ⟨?_, ?_, State.post_keeps_raised rfl ?_ _ _, w, ?_, ?_, ?_, rfl⟩
  · rw [honly.gdu, hw]
    rfl
  · rw [honly.tracks, hw]
    rfl
  · rw [hw]
    exact List.mem_append_left _ (List.mem_append_right _ (q.evaluation_mem false))
  · rw [hw]
    rfl
  · rw [hw]
    rfl
  · rw [hw]
    rfl

/-- R51, R52, R78: the NEW of a fresh sequence, by TRT's answer. -/
theorem State.localNew_eq {v : Nat} (hv : freshSeq s.tracks s.scs.own 256 (s.gdu.nextSeq % 256) = some v)
    {answer : Answer} {u : State}
    (ha : s.admission (e.request s.scs.own ⟨s.scs.own, v⟩ .new e.onset) false = (answer, u)) :
    s.localNew e = State.post (u.mapGdu fun _ =>
      { mode := .episode { e with track := some ⟨s.scs.own, v⟩, recorded := decide (answer = .admitted) }
        nextSeq := (v + 1) % 256 }) 1 (e.notice ⟨s.scs.own, v⟩ .new) := by
  unfold State.localNew
  rw [hv]
  simp only
  rw [ha]

theorem State.localNew_ok {v : Nat} (hv : freshSeq s.tracks s.scs.own 256 (s.gdu.nextSeq % 256) = some v)
    (hfree : s.trackOf ⟨s.scs.own, v⟩ = none) :
    let q := e.request s.scs.own ⟨s.scs.own, v⟩ .new e.onset
    let t := s.localNew e
    (∃ recorded, t.gdu = { mode := .episode { e with track := some ⟨s.scs.own, v⟩, recorded := recorded }
                           nextSeq := (v + 1) % 256 } ∧
      (NoPlace s e.onset → recorded = false ∧ t.tracks = s.tracks) ∧
      (¬NoPlace s e.onset → recorded = true ∧ .evaluation ∈ t.raised ∧
        ((∃ k : Nat, s.tracks[k]? = some none ∧ (∀ j : Nat, j < k → s.tracks[j]? ≠ some none) ∧
            t.tracks = s.tracks.set k (some (q.made.admitted s))) ∨
          (none ∉ s.tracks ∧ ∃ v, victim (liveTracks s.tracks) e.onset = some v ∧
            t.tracks = replaceTrack s.tracks v.id (some (q.made.admitted s)))))) ∧
    PostOf s t (e.notice ⟨s.scs.own, v⟩ .new) 1 := by
  intro q t
  by_cases hno : NoPlace s e.onset
  · have ht := State.localNew_eq (e := e) hv (State.admission_full (r := q) hfree hno false)
    rw [show t = _ from ht]
    refine ⟨⟨false, ?_, fun _ => ⟨rfl, ?_⟩, fun hyes => absurd hno hyes⟩, _, ?_, ?_, ?_, rfl⟩
    · rw [(State.post_only _ _ _).gdu]
      rfl
    · rw [(State.post_only _ _ _).tracks]
      rfl
    · rfl
    · rfl
    · rfl
  · obtain ⟨l, hadmission, hl⟩ := State.admission_created (r := q) hfree hno false
    have ht := State.localNew_eq (e := e) hv hadmission
    rw [show t = _ from ht]
    refine ⟨⟨true, ?_, fun hyes => absurd hyes hno, fun _ => ⟨rfl, State.post_keeps_raised rfl ?_ _ _, ?_⟩⟩,
      _, ?_, ?_, ?_, rfl⟩
    · rw [(State.post_only _ _ _).gdu]
      rfl
    · exact List.mem_append_left _ (List.mem_append_right _ (q.evaluation_mem false))
    · rw [(State.post_only _ _ _).tracks]
      exact hl
    · rfl
    · rfl
    · rfl

/-! #### The onset (R43, R44, R48) -/

/-- R44: the latch claimed. -/
def State.claimed (s : State) : State := s.mapSfe fun f => { f with latch := false }

variable {r : SampleRecord}

theorem State.onset_unreported (h : s.scs.station ≠ .operating) :
    s.onset r = s.claimed.setMode (.episode (s.newEpisode r)) := by
  unfold State.onset
  simp only
  exact if_neg fun hr => h (of_decide_eq_true hr)

theorem State.onset_joins (h : s.scs.station = .operating) (ha : s.associate r.sector r.stamp = some id) :
    s.onset r = s.claimed.localJoin (s.newEpisode r) id := by
  have hclaimed : (s.mapSfe fun f => { f with latch := false }).associate (s.newEpisode r).sector
      (s.newEpisode r).onset = some id := ha
  have hreports : (s.newEpisode r).reporting = true := decide_eq_true h
  unfold State.onset
  simp only
  rw [if_pos hreports, hclaimed]
  rfl

theorem State.onset_news (h : s.scs.station = .operating) (ha : s.associate r.sector r.stamp = none) :
    s.onset r = s.claimed.localNew (s.newEpisode r) := by
  have hclaimed : (s.mapSfe fun f => { f with latch := false }).associate (s.newEpisode r).sector
      (s.newEpisode r).onset = none := ha
  have hreports : (s.newEpisode r).reporting = true := decide_eq_true h
  unfold State.onset
  simp only
  rw [if_pos hreports, hclaimed]
  rfl

/-! #### The update (R53–R56) -/

theorem markedRise_iff {step peak last : Nat} :
    markedRise step peak last = true ↔ last < peak ∧ last * (100 + step) ≤ peak * 100 := by
  unfold markedRise
  rw [Bool.and_eq_true, decide_eq_true_iff, decide_eq_true_iff]

/-- R54: the update fires at the peaks of the record. -/
theorem Episode.fires_iff {step : Nat} : e.fires step = true ↔ UpdateFires step e e.peakSpeed e.peakDust := by
  unfold Episode.fires UpdateFires
  rw [Bool.or_eq_true, markedRise_iff]
  refine or_congr Iff.rfl ?_
  cases e.peakDust with
  | none => simp
  | some d =>
    cases e.lastDust with
    | none => simp
    | some l => simp [markedRise_iff]

theorem State.update_untracked {u : Time} (h : e.track = none) : s.update e u = s.setMode (.episode e) := by
  unfold State.update
  rw [h]

theorem State.update_lost {u : Time} (h : e.track = some id) (ht : s.trackOf id = none) :
    s.update e u = s.setMode (.episode { e with recorded := false }) := by
  unfold State.update
  rw [h]
  simp only
  rw [ht]
  rfl

/-- R55: the episode record once an update has been made. -/
def Episode.updated (e : Episode) (latch : Bool) : Episode := { e with
  w := e.w || latch, updates := e.updates + 1, lastSpeed := e.peakSpeed, lastDust := e.peakDust }

theorem State.update_made {u : Time} (h : e.track = some id) (ht : s.trackOf id = some tr) :
    s.update e u = ((s.admission ((e.updated s.sfe.latch).request s.scs.own id .update u) false).2.post 3
      ((e.updated s.sfe.latch).notice id .update)).setMode (.episode (e.updated s.sfe.latch)) := by
  unfold State.update Episode.updated
  rw [h]
  simp only
  rw [ht]
  rfl

theorem State.update_ok {u : Time} (h : e.track = some id) (ht : s.trackOf id = some tr) (hinv : TracksInv s) :
    let q := (e.updated s.sfe.latch).request s.scs.own id .update u
    let t := s.update e u
    t.tracks = replaceTrack s.tracks id (some ((q.onto tr).admitted s)) ∧ .evaluation ∈ t.raised ∧
    PostOf s t ((e.updated s.sfe.latch).notice id .update) 3 := by
  intro q t
  have hadmission := State.admission_held (r := q) hinv ht nofun false
  obtain ⟨w, hw⟩ : ∃ w, w = (s.admission q false).2 := ⟨_, rfl⟩
  have htw : t = (w.post 3 ((e.updated s.sfe.latch).notice id .update)).setMode (.episode (e.updated s.sfe.latch)) := by
    rw [hw]
    exact State.update_made h ht
  rw [hadmission] at hw
  have honly := w.post_only 3 ((e.updated s.sfe.latch).notice id .update)
  rw [htw]
  refine ⟨?_, State.post_keeps_raised rfl ?_ _ _, w, ?_, ?_, ?_, rfl⟩
  · change (w.post 3 ((e.updated s.sfe.latch).notice id .update)).tracks = _
    rw [honly.tracks, hw]
    rfl
  · rw [hw]
    exact List.mem_append_left _ (List.mem_append_right _ (q.evaluation_mem false))
  · rw [hw]
  · rw [hw]
  · rw [hw]

/-- R55, R56: an update changes of the episode's record no more than its mark, count and last values. -/
theorem State.update_mode (s : State) (e : Episode) (u : Time) : ∃ recorded w updates lastSpeed lastDust,
    (s.update e u).gdu = { s.gdu with mode := .episode { e with
      recorded := recorded, w := w, updates := updates, lastSpeed := lastSpeed, lastDust := lastDust } } := by
  obtain h | ⟨id, h⟩ := Option.eq_none_or_eq_some e.track
  · rw [State.update_untracked h]
    exact ⟨e.recorded, e.w, e.updates, e.lastSpeed, e.lastDust, rfl⟩
  · obtain ht | ⟨tr, ht⟩ := Option.eq_none_or_eq_some (s.trackOf id)
    · rw [State.update_lost h ht]
      exact ⟨false, e.w, e.updates, e.lastSpeed, e.lastDust, rfl⟩
    · rw [State.update_made h ht]
      refine ⟨e.recorded, e.w || s.sfe.latch, e.updates + 1, e.peakSpeed, e.peakDust, ?_⟩
      have hgdu : ∀ q n, ((s.admission q false).2.post 3 n).gdu = s.gdu := fun q n => by
        rw [(State.post_only _ _ _).gdu, s.admission_only _ _]
      exact congrArg (fun g : Gdu => { g with mode := .episode (e.updated s.sfe.latch) }) (hgdu _ _)

end

end Sys2Proof.Machine

/-! ### The detector over one sample (R41–R56, O29) -/

namespace Sys2Proof.Machine

section
variable {s : State} {vane : BitVec 4} {lamp : Bool}

/-! #### Modes (R41–R45) -/

theorem sample_notReady (h : s.sfe.anemoIn = false ∨ (s.sample vane lamp).sfe.warming < 240) :
    (s.sample vane lamp).gdu.mode = .notReady := by
  have hr : (s.sampleHeard vane lamp).sampleRecord.ready = false := by
    refine Bool.eq_false_iff.2 fun hready => ?_
    obtain ⟨hin, hwarm⟩ := (s.sample_ready vane lamp).1 hready
    obtain hout | hlt := h
    · exact Bool.false_ne_true (hout.symm.trans hin)
    · omega
  rw [State.sample_heard, State.gduSample_unready hr]
  rfl

theorem sample_idle (hr : (s.sampleHeard vane lamp).sampleRecord.ready = true)
    (hm : s.gdu.mode = .notReady ∨ s.gdu.mode = .quiet) :
    (qualifiesFor s (s.sample vane lamp).sfe → (s.sample vane lamp).gdu.mode = .arming) ∧
    (¬qualifiesFor s (s.sample vane lamp).sfe → (s.sample vane lamp).gdu.mode = .quiet) := by
  have ht := State.gduSample_idle hr (by rw [s.sampleHeard_gdu vane lamp]; exact hm)
  have hmode : (s.sample vane lamp).gdu.mode =
      if (s.sampleHeard vane lamp).qualifies (s.sampleHeard vane lamp).sampleRecord then .arming else .quiet := by
    rw [State.sample_heard, ht]
    rfl
  rw [hmode, ← s.sample_qualifies vane lamp]
  exact ⟨fun hq => if_pos hq, fun hq => if_neg hq⟩

theorem sample_disarmed (hr : (s.sampleHeard vane lamp).sampleRecord.ready = true) (hm : s.gdu.mode = .arming)
    (hq : ¬qualifiesFor s (s.sample vane lamp).sfe) : (s.sample vane lamp).gdu.mode = .quiet := by
  rw [← s.sample_qualifies vane lamp] at hq
  have ht := State.gduSample_arming hr (by rw [s.sampleHeard_gdu vane lamp]; exact hm)
  rw [State.sample_heard, ht, if_neg hq]
  rfl

/-- R43: with a qualifying sample in ARMING the onset is taken. -/
theorem sample_onsets (hr : (s.sampleHeard vane lamp).sampleRecord.ready = true) (hm : s.gdu.mode = .arming)
    (hq : qualifiesFor s (s.sample vane lamp).sfe) :
    s.sample vane lamp = (s.sampleHeard vane lamp).onset (s.sampleHeard vane lamp).sampleRecord := by
  rw [← s.sample_qualifies vane lamp] at hq
  have ht := State.gduSample_arming hr (by rw [s.sampleHeard_gdu vane lamp]; exact hm)
  rw [if_pos hq] at ht
  exact ht

/-- R43, R44: the record of an onset, the latch claimed. -/
theorem onset_record (ht : s.sample vane lamp = (s.sampleHeard vane lamp).onset (s.sampleHeard vane lamp).sampleRecord) :
    (s.sample vane lamp).sfe.latch = false ∧ ∃ e, (s.sample vane lamp).gdu.mode = .episode e ∧ e.onset = s.prt.time ∧
      e.sector = (s.sample vane lamp).sfe.accepted ∧ e.peakSpeed = (s.sample vane lamp).sfe.g3 ∧
      e.peakDust = (s.sample vane lamp).sfe.dustIndex ∧
      e.w = (s.sfe.latch || decide (s.sfe.supprLevel = s.ownRec.supprHigh)) ∧
      e.trusted = s.prt.trusted ∧ e.updates = 0 ∧ e.quiet = 0 ∧
      e.lastSpeed = (s.sample vane lamp).sfe.g3 ∧ e.lastDust = (s.sample vane lamp).sfe.dustIndex ∧
      e.reporting = decide (s.scs.station = .operating) := by
  obtain ⟨hstamp, hg3, hsector, hdust⟩ := s.sample_record vane lamp
  obtain ⟨-, -, hprt, -, -, hstation⟩ := s.sampleHeard_fields vane lamp
  obtain ⟨track, recorded, hmode⟩ := (s.sampleHeard vane lamp).onset_mode (s.sampleHeard vane lamp).sampleRecord
  rw [← ht] at hmode
  refine ⟨by rw [ht]; exact State.onset_latch _ _, _, hmode, hstamp, hsector, hg3, hdust, s.sampled_latch vane lamp,
    congrArg Prt.trusted hprt, rfl, rfl, hg3, hdust, ?_⟩
  rw [← hstation]
  rfl

/-! #### The onset's track (R48–R52, R78) -/

/-- R43: an episode out of ARMING is that of an onset. -/
theorem sample_onset_of_mode {e : Episode} (hm : s.gdu.mode = .arming)
    (he : (s.sample vane lamp).gdu.mode = .episode e) :
    s.sample vane lamp = (s.sampleHeard vane lamp).onset (s.sampleHeard vane lamp).sampleRecord := by
  rw [← s.sampleHeard_gdu vane lamp] at hm
  obtain ⟨-, ht⟩ | ⟨-, hno⟩ := (s.sampleHeard vane lamp).gduSample_cases (s.sampleHeard vane lamp).sampleRecord
  · exact ht
  · exact absurd he (hno hm e)

/-- R43: the state that claims the latch has table, roster and station of the sample's. -/
theorem claimed_fields (s : State) (vane : BitVec 4) (lamp : Bool) :
    let y := (s.sampleHeard vane lamp).claimed
    y.tracks = s.tracks ∧ y.tables = s.tables ∧ y.prt = s.prt ∧ y.scs.own = s.scs.own ∧
    y.scs.station = s.scs.station ∧ y.gdu = s.gdu := by
  obtain ⟨htracks, htables, hprt, -, hown, hstation⟩ := s.sampleHeard_fields vane lamp
  exact ⟨htracks, htables, hprt, hown, hstation, s.sampleHeard_gdu vane lamp⟩

variable {e : Episode}

theorem onset_unreported_ok (ht : s.sample vane lamp =
      (s.sampleHeard vane lamp).onset (s.sampleHeard vane lamp).sampleRecord)
    (he : (s.sample vane lamp).gdu.mode = .episode e) (hr : e.reporting = false) :
    e.track = none ∧ e.recorded = false ∧ (s.sample vane lamp).tracks = s.tracks ∧
      (s.sample vane lamp).gdu.nextSeq = s.gdu.nextSeq := by
  obtain ⟨htracks, -, -, -, -, hgdu⟩ := claimed_fields s vane lamp
  obtain ⟨track, recorded, hmode⟩ := (s.sampleHeard vane lamp).onset_mode (s.sampleHeard vane lamp).sampleRecord
  rw [← ht, he] at hmode
  have hstation : (s.sampleHeard vane lamp).scs.station ≠ .operating := by
    rw [Mode.episode.inj hmode] at hr
    exact of_decide_eq_false hr
  rw [State.onset_unreported hstation] at ht
  rw [ht] at he ⊢
  obtain rfl := Mode.episode.inj he
  exact ⟨rfl, rfl, htracks, (congrArg Gdu.nextSeq hgdu : (s.sampleHeard vane lamp).claimed.gdu.nextSeq = _)⟩

/-- R44: what the record of an onset, its track apart, says of the association asked for. -/
theorem onset_reported (ht : s.sample vane lamp =
      (s.sampleHeard vane lamp).onset (s.sampleHeard vane lamp).sampleRecord)
    (he : (s.sample vane lamp).gdu.mode = .episode e) (hr : e.reporting = true) :
    ∃ track recorded, e = { (s.sampleHeard vane lamp).newEpisode (s.sampleHeard vane lamp).sampleRecord with
        track := track, recorded := recorded } ∧
      (s.sampleHeard vane lamp).scs.station = .operating ∧
      (s.sampleHeard vane lamp).associate (s.sampleHeard vane lamp).sampleRecord.sector
        (s.sampleHeard vane lamp).sampleRecord.stamp = s.associate e.sector e.onset := by
  obtain ⟨htracks, htables, -, -, hown, -⟩ := s.sampleHeard_fields vane lamp
  obtain ⟨track, recorded, hmode⟩ := (s.sampleHeard vane lamp).onset_mode (s.sampleHeard vane lamp).sampleRecord
  rw [← ht, he] at hmode
  have heq := Mode.episode.inj hmode
  refine ⟨track, recorded, heq, ?_, ?_⟩
  · rw [heq] at hr
    exact of_decide_eq_true hr
  · rw [State.associate_congr htracks htables hown, heq]
    rfl

/-- R145: the detector's post, as the statement says it. -/
theorem postedAnew_of_postOf {t : State} {n : Notice} {cls : Nat} (hinv : QueueInv s)
    (hroom : s.nq.entries.length < 7) (hk : n.key ≠ .presence) (hnone : s.entryOf n.key = none) {y : State}
    (hynq : y.nq = (s.sampleHeard vane lamp).nq) (hyprt : y.prt = s.prt) (hstation : y.scs.station ≠ .joining)
    (hpost : PostOf y t n cls) : PostedAnew s t n cls := by
  obtain ⟨w, hnq, hprt, hscs, ht⟩ := hpost
  exact postedAnew_sampled vane lamp hinv hroom hk hnone (hnq.trans hynq) (hprt.trans hyprt)
    (by rw [hscs]; exact hstation) ht

/-- R49, R50: the onset of an associated track. -/
theorem onset_joined_ok (hinv : TracksInv s)
    (ht : s.sample vane lamp = (s.sampleHeard vane lamp).onset (s.sampleHeard vane lamp).sampleRecord)
    (he : (s.sample vane lamp).gdu.mode = .episode e) (hr : e.reporting = true) {id : TrackId}
    (ha : s.associate e.sector e.onset = some id) :
    let t := s.sample vane lamp
    e.track = some id ∧ e.recorded = true ∧ t.gdu.nextSeq = s.gdu.nextSeq ∧
    (∃ tr u, s.trackOf id = some tr ∧ SlotChanged s t tr u ∧ TrackKept tr u ∧
      SightingJoined tr (e.sighting s.scs.own) u ∧ TrackCompleted s tr.confirmed u) ∧
    .evaluation ∈ t.raised ∧
    (QueueInv s → s.nq.entries.length < 7 → s.entryOf (.sighting id) = none →
      PostedAnew s t (e.notice id .join) 3) := by
  obtain ⟨tr, htr⟩ := State.associate_held hinv ha
  obtain ⟨track, recorded, heq, hstation, hassociate⟩ := onset_reported ht he hr
  obtain ⟨htracks, htables, hprt, hown, -, hgdu⟩ := claimed_fields s vane lamp
  rw [State.onset_joins hstation (hassociate.trans ha)] at ht
  intro t
  generalize hy : (s.sampleHeard vane lamp).claimed = y at *
  have hynq : y.nq = (s.sampleHeard vane lamp).nq := hy ▸ rfl
  have hystation : y.scs.station ≠ .joining := by
    rw [← hy]
    exact fun h => nomatch hstation.symm.trans h
  obtain ⟨htgdu, httracks, hraised, hpost⟩ := State.localJoin_ok (s := y)
    (e := (s.sampleHeard vane lamp).newEpisode (s.sampleHeard vane lamp).sampleRecord)
    (by unfold TracksInv; rw [htracks]; exact hinv) ((State.trackOf_congr htracks _).trans htr)
  rw [Track.admitted_congr htables (congrArg Prt.time hprt), htracks, hown] at httracks
  rw [← ht] at htgdu httracks hraised hpost
  obtain ⟨hmem, hid⟩ := State.trackOf_some htr
  have hok := hinv.2.2 tr hmem
  have hfinal : e = { (s.sampleHeard vane lamp).newEpisode (s.sampleHeard vane lamp).sampleRecord with
      track := some id, recorded := true } := by
    rw [htgdu] at he
    exact (Mode.episode.inj he).symm
  refine ⟨by rw [hfinal], by rw [hfinal], by rw [show t.gdu = _ from htgdu, hgdu], ⟨tr, _, htr,
    slotChanged_of_replace hinv hmem (by rw [hid]; exact httracks), trackKept_onto hok (by exact nofun), ?_,
    trackCompleted_onto hok⟩, hraised, fun hq hroom hnone => ?_⟩
  · rw [hfinal]
    exact sightingJoined_onto hok rfl
  · rw [hfinal]
    exact postedAnew_of_postOf hq hroom nofun hnone hynq hprt hystation hpost

/-- R64: the track that an admitted NEW makes. -/
theorem newTrack_admitted {q : Request} (h : q.form = .new) : (q.made.admitted s).id = q.id ∧
    (q.made.admitted s).onset = some q.sighting.time ∧ (q.made.admitted s).placeholder = false ∧
    (q.made.admitted s).sector = q.sector ∧ (q.made.admitted s).sightings = [q.sighting] ∧
    (q.made.admitted s).last = q.sighting.time ∧ TrackCompleted s false (q.made.admitted s) := by
  have hmade : q.made = q.newTrack := if_pos h
  have hcompleted := Track.admitted_completed (s := s) q.newTrack_shaped
  obtain ⟨hid, hsector, honset, hplaceholder, hsightings, hlast, -⟩ :=
    Track.admitted_frame (s := s) q.newTrack_shaped
  rw [hmade]
  exact ⟨hid, honset, hplaceholder, hsector, hsightings, hlast, hcompleted⟩

/-- R51, R52, R78: the onset that no track is associated with. -/
theorem onset_new_ok (hinv : TracksInv s)
    (ht : s.sample vane lamp = (s.sampleHeard vane lamp).onset (s.sampleHeard vane lamp).sampleRecord)
    (he : (s.sample vane lamp).gdu.mode = .episode e) (hr : e.reporting = true)
    (ha : s.associate e.sector e.onset = none) :
    let t := s.sample vane lamp
    ∃ j v : Nat, j < 256 ∧ v = (s.gdu.nextSeq + j) % 256 ∧ s.trackOf ⟨s.scs.own, v⟩ = none ∧
      (∀ i, i < j → (s.trackOf ⟨s.scs.own, (s.gdu.nextSeq + i) % 256⟩).isSome = true) ∧
      e.track = some ⟨s.scs.own, v⟩ ∧ t.gdu.nextSeq = (v + 1) % 256 ∧
      (NoPlace s e.onset → e.recorded = false ∧ t.tracks = s.tracks) ∧
      (¬NoPlace s e.onset → e.recorded = true ∧ .evaluation ∈ t.raised ∧
        ∃ u, TrackPlaced s t e.onset u ∧ u.id = ⟨s.scs.own, v⟩ ∧ u.onset = some e.onset ∧
          u.placeholder = false ∧ u.sector = e.sector ∧ u.sightings = [e.sighting s.scs.own] ∧
          u.last = e.onset ∧ TrackCompleted s false u) ∧
      (QueueInv s → s.nq.entries.length < 7 → s.entryOf (.sighting ⟨s.scs.own, v⟩) = none →
        PostedAnew s t (e.notice ⟨s.scs.own, v⟩ .new) 1) := by
  obtain ⟨track, recorded, heq, hstation, hassociate⟩ := onset_reported ht he hr
  obtain ⟨htracks, htables, hprt, hown, -, hgdu⟩ := claimed_fields s vane lamp
  rw [State.onset_news hstation (hassociate.trans ha)] at ht
  intro t
  generalize hy : (s.sampleHeard vane lamp).claimed = y at *
  have hynq : y.nq = (s.sampleHeard vane lamp).nq := hy ▸ rfl
  have hystation : y.scs.station ≠ .joining := by
    rw [← hy]
    exact fun h => nomatch hstation.symm.trans h
  obtain ⟨v, hv⟩ := freshSeq_found (own := s.scs.own) hinv.1 s.gdu.nextSeq
  obtain ⟨j, hj, hvj, hfree, hbefore⟩ := freshSeq_some (Nat.mod_lt _ (by decide)) hv
  obtain ⟨⟨recorded', htgdu, hfull, hplaced⟩, hpost⟩ := State.localNew_ok (s := y) (v := v)
    (e := (s.sampleHeard vane lamp).newEpisode (s.sampleHeard vane lamp).sampleRecord)
    (by rw [htracks, hown, hgdu]; exact hv) (by rw [State.trackOf_congr htracks, hown, s.trackOf_eq_slotTrack]; exact hfree)
  simp only [noPlace_congr htracks, Track.admitted_congr htables (congrArg Prt.time hprt), htracks, hown] at hfull hplaced
  rw [hown] at htgdu hpost
  rw [← ht] at htgdu hfull hplaced hpost
  have hfinal : e = { (s.sampleHeard vane lamp).newEpisode (s.sampleHeard vane lamp).sampleRecord with
      track := some ⟨s.scs.own, v⟩, recorded := recorded' } := by
    rw [htgdu] at he
    exact (Mode.episode.inj he).symm
  subst hfinal
  refine ⟨j, v, hj, by omega, s.trackOf_eq_slotTrack _ ▸ hfree, fun i hi => ?_, rfl, congrArg Gdu.nextSeq htgdu,
    hfull, fun hplace => ?_, fun hq hroom hnone => ?_⟩
  · have hheld := hbefore i hi
    rw [s.trackOf_eq_slotTrack]
    rwa [Nat.mod_add_mod] at hheld
  · obtain ⟨hrec, hraised, hslots⟩ := hplaced hplace
    obtain ⟨hid, honset, hplaceholder, hsector, hsightings, hlast, hcompleted⟩ := newTrack_admitted (s := s)
      (q := ((s.sampleHeard vane lamp).newEpisode (s.sampleHeard vane lamp).sampleRecord).request s.scs.own
        ⟨s.scs.own, v⟩ .new ((s.sampleHeard vane lamp).newEpisode (s.sampleHeard vane lamp).sampleRecord).onset) rfl
    exact ⟨hrec, hraised, _, trackPlaced_of_slots hinv hslots, hid, honset, hplaceholder, hsector, hsightings, hlast,
      hcompleted⟩
  · exact postedAnew_of_postOf hq hroom nofun hnone hynq hprt hystation hpost

/-! #### Updates (R45, R53–R56) -/

/-- R45: the quiet run after a sample. -/
def State.quietAfter (s : State) (e : Episode) (r : SampleRecord) : Nat := if s.qualifies r then 0 else e.quiet + 1

variable {r : SampleRecord}

/-- R54: the update fires with the sample. -/
def State.updates (s : State) (e : Episode) (r : SampleRecord) : Bool :=
  let e' := e.follow r (s.quietAfter e r)
  e'.reporting && e'.recorded && decide (e'.updates < 3) && e'.fires (site s.tables).updateStep

theorem State.episodeSample_ends (h : 12 ≤ s.quietAfter e r) : s.episodeSample e r = s.setMode .quiet := if_pos h

theorem State.episodeSample_updates (h : ¬12 ≤ s.quietAfter e r) (hf : s.updates e r = true) :
    s.episodeSample e r = s.update (e.follow r (s.quietAfter e r)) r.stamp := (if_neg h).trans (if_pos hf)

theorem State.episodeSample_keeps (h : ¬12 ≤ s.quietAfter e r) (hf : ¬s.updates e r = true) :
    s.episodeSample e r = s.setMode (.episode (e.follow r (s.quietAfter e r))) := (if_neg h).trans (if_neg hf)

/-- R45, R53: the record that an episode's sample leaves follows the peaks. -/
theorem State.episodeSample_mode (h : ¬12 ≤ s.quietAfter e r) : ∃ recorded w updates lastSpeed lastDust,
    (s.episodeSample e r).gdu = { s.gdu with mode := .episode { e.follow r (s.quietAfter e r) with
      recorded := recorded, w := w, updates := updates, lastSpeed := lastSpeed, lastDust := lastDust } } := by
  by_cases hf : s.updates e r = true
  · rw [State.episodeSample_updates h hf]
    exact State.update_mode _ _ _
  · rw [State.episodeSample_keeps h hf]
    exact ⟨e.recorded, e.w, e.updates, e.lastSpeed, e.lastDust, rfl⟩

theorem State.updates_iff : s.updates e r = true ↔ e.reporting = true ∧ e.recorded = true ∧ e.updates < 3 ∧
    UpdateFires (site s.tables).updateStep e (max e.peakSpeed r.g3) (maxDust e.peakDust r.dust) := by
  unfold State.updates
  simp only [Bool.and_eq_true, decide_eq_true_iff, and_assoc, Episode.fires_iff]
  exact Iff.rfl

/-- R45: a sample in EPISODE. -/
theorem sample_episode (hr : (s.sampleHeard vane lamp).sampleRecord.ready = true) (hm : s.gdu.mode = .episode e) :
    s.sample vane lamp = (s.sampleHeard vane lamp).episodeSample e (s.sampleHeard vane lamp).sampleRecord :=
  State.gduSample_episode (s := s.sampleHeard vane lamp) hr
    ((congrArg Gdu.mode (s.sampleHeard_gdu vane lamp)).trans hm)

theorem quietAfter_iff (s : State) (vane : BitVec 4) (lamp : Bool) (e : Episode) :
    (qualifiesFor s (s.sample vane lamp).sfe →
      (s.sampleHeard vane lamp).quietAfter e (s.sampleHeard vane lamp).sampleRecord = 0) ∧
    (¬qualifiesFor s (s.sample vane lamp).sfe →
      (s.sampleHeard vane lamp).quietAfter e (s.sampleHeard vane lamp).sampleRecord = e.quiet + 1) := by
  rw [← s.sample_qualifies vane lamp]
  exact ⟨fun h => if_pos h, fun h => if_neg h⟩

/-- R45, R53: the episode over one sample, by the quiet run. -/
theorem sample_episode_modes (hr : (s.sampleHeard vane lamp).sampleRecord.ready = true)
    (hm : s.gdu.mode = .episode e) :
    let t := s.sample vane lamp
    (qualifiesFor s t.sfe → ∃ e', t.gdu.mode = .episode e' ∧ e'.quiet = 0 ∧
      e'.peakSpeed = max e.peakSpeed t.sfe.g3 ∧ e'.onset = e.onset) ∧
    (¬qualifiesFor s t.sfe → e.quiet + 1 < 12 → ∃ e', t.gdu.mode = .episode e' ∧
      e'.quiet = e.quiet + 1 ∧ e'.peakSpeed = max e.peakSpeed t.sfe.g3 ∧ e'.onset = e.onset) ∧
    (¬qualifiesFor s t.sfe → 12 ≤ e.quiet + 1 → t.gdu.mode = .quiet) := by
  intro t
  have ht : t = _ := sample_episode hr hm
  obtain ⟨-, hg3, -, -⟩ := s.sample_record vane lamp
  obtain ⟨hzero, hnext⟩ := quietAfter_iff s vane lamp e
  have hgoes : ∀ q, (s.sampleHeard vane lamp).quietAfter e (s.sampleHeard vane lamp).sampleRecord = q → ¬12 ≤ q →
      ∃ e', t.gdu.mode = .episode e' ∧ e'.quiet = q ∧ e'.peakSpeed = max e.peakSpeed t.sfe.g3 ∧
        e'.onset = e.onset := fun q hq hlt => by
    obtain ⟨_, _, _, _, _, hgdu⟩ := State.episodeSample_mode (hq ▸ hlt)
    rw [← ht] at hgdu
    exact ⟨_, congrArg Gdu.mode hgdu, hq, congrArg (max e.peakSpeed) hg3, rfl⟩
  refine ⟨fun h => hgoes 0 (hzero h) (by decide), fun h hlt => hgoes _ (hnext h) (Nat.not_le.2 hlt), fun h hle => ?_⟩
  rw [ht, State.episodeSample_ends ((hnext h).symm ▸ hle)]
  rfl

/-- R41, R45: an episode goes on only in a ready sample, before its quiet run ends it. -/
theorem sample_episode_goes (hm : s.gdu.mode = .episode e) {e' : Episode}
    (he : (s.sample vane lamp).gdu.mode = .episode e') :
    (s.sampleHeard vane lamp).sampleRecord.ready = true ∧
    ¬12 ≤ (s.sampleHeard vane lamp).quietAfter e (s.sampleHeard vane lamp).sampleRecord := by
  have hr : (s.sampleHeard vane lamp).sampleRecord.ready = true := by
    by_contra hr
    rw [State.sample_heard, State.gduSample_unready (Bool.not_eq_true _ ▸ hr)] at he
    exact nomatch he
  refine ⟨hr, fun hend => ?_⟩
  rw [sample_episode hr hm, State.episodeSample_ends hend] at he
  exact nomatch he

/-- R55, R56: the update that fires while the table holds the episode's track. -/
theorem sample_updated_ok (hinv : TracksInv s) {o e' : Episode} {id : TrackId} {tr : Track}
    (ht : s.sample vane lamp = (s.sampleHeard vane lamp).update o s.prt.time) (hid : o.track = some id)
    (htr : s.trackOf id = some tr) (he : (s.sample vane lamp).gdu.mode = .episode e') :
    let t := s.sample vane lamp
    e' = o.updated t.sfe.latch ∧ .evaluation ∈ t.raised ∧
    (∃ u, SlotChanged s t tr u ∧ TrackKept tr u ∧
      SightingUpdated tr (e'.sighting s.scs.own) s.prt.time u ∧ TrackCompleted s tr.confirmed u) ∧
    (QueueInv s → s.scs.station ≠ .joining → s.nq.entries.length < 7 →
      s.entryOf (.sighting id) = none → PostedAnew s t (e'.notice id .update) 3) := by
  intro t
  obtain ⟨htracks, htables, hprt, -, hown, hstation⟩ := s.sampleHeard_fields vane lamp
  have hlatch : t.sfe.latch = (s.sampleHeard vane lamp).sfe.latch :=
    (congrArg (fun u => u.sfe.latch) ht).trans (State.update_latch _ _ _)
  have hinv' : TracksInv (s.sampleHeard vane lamp) := by
    unfold TracksInv
    rw [htracks]
    exact hinv
  have htr' := (State.trackOf_congr htracks id).trans htr
  have hmade := ht.trans (State.update_made hid htr')
  obtain ⟨httracks, hraised, hpost⟩ := State.update_ok (u := s.prt.time) hid htr' hinv'
  rw [Track.admitted_congr htables (congrArg Prt.time hprt), htracks, hown] at httracks
  rw [← ht] at httracks hraised hpost
  obtain rfl := Mode.episode.inj ((congrArg (fun u => u.gdu.mode) hmade).symm.trans he)
  obtain ⟨hmem, hid'⟩ := State.trackOf_some htr
  have hok := hinv.2.2 tr hmem
  refine ⟨congrArg o.updated hlatch.symm, hraised, ⟨_, slotChanged_of_replace hinv hmem (by rw [hid']; exact httracks),
    trackKept_onto hok (by exact nofun), sightingUpdated_onto (r := (o.updated _).request s.scs.own id .update _) hok rfl,
    trackCompleted_onto hok⟩,
    fun hq hjoined hroom hnone => ?_⟩
  exact postedAnew_of_postOf hq hroom nofun hnone rfl hprt (hstation ▸ hjoined) hpost

/-- R53–R56: the episode's record, its track and its notice over one sample. -/
theorem sample_episode_follows (hm : s.gdu.mode = .episode e) {e' : Episode}
    (he : (s.sample vane lamp).gdu.mode = .episode e') :
    let t := s.sample vane lamp
    let fires := e.reporting = true ∧ e.recorded = true ∧ e.updates < 3 ∧
      UpdateFires (site s.tables).updateStep e e'.peakSpeed e'.peakDust
    e'.peakDust = maxDust e.peakDust t.sfe.dustIndex ∧ e'.track = e.track ∧
    e'.trusted = e.trusted ∧ e'.sector = e.sector ∧ t.gdu.nextSeq = s.gdu.nextSeq ∧
    (¬fires → e'.recorded = e.recorded ∧ e'.updates = e.updates ∧ e'.w = e.w ∧
      e'.lastSpeed = e.lastSpeed ∧ e'.lastDust = e.lastDust ∧ t.tracks = s.tracks) ∧
    (fires → ∀ id, e.track = some id →
      (s.trackOf id = none → e'.recorded = false ∧ e'.updates = e.updates ∧
        e'.lastSpeed = e.lastSpeed ∧ e'.lastDust = e.lastDust ∧ t.tracks = s.tracks) ∧
      (∀ tr, s.trackOf id = some tr → TracksInv s →
        e'.recorded = true ∧ e'.updates = e.updates + 1 ∧ e'.w = (e.w || t.sfe.latch) ∧
        e'.lastSpeed = e'.peakSpeed ∧ e'.lastDust = e'.peakDust ∧ .evaluation ∈ t.raised ∧
        (∃ u, SlotChanged s t tr u ∧ TrackKept tr u ∧
          SightingUpdated tr (e'.sighting s.scs.own) s.prt.time u ∧ TrackCompleted s tr.confirmed u) ∧
        (QueueInv s → s.scs.station ≠ .joining → s.nq.entries.length < 7 →
          s.entryOf (.sighting id) = none → PostedAnew s t (e'.notice id .update) 3))) := by
  intro t fires
  obtain ⟨hr, hgoes⟩ := sample_episode_goes hm he
  have ht : t = _ := sample_episode hr hm
  obtain ⟨hstamp, -, -, hdust⟩ := s.sample_record vane lamp
  obtain ⟨htracks, htables, hprt, -, hown, hstation⟩ := s.sampleHeard_fields vane lamp
  obtain ⟨recorded, w, updates, lastSpeed, lastDust, hgdu⟩ := State.episodeSample_mode hgoes
  rw [← ht] at hgdu
  have heq := Mode.episode.inj ((congrArg Gdu.mode hgdu).symm.trans he)
  have hfires : fires ↔ (s.sampleHeard vane lamp).updates e (s.sampleHeard vane lamp).sampleRecord = true := by
    rw [State.updates_iff, htables]
    change _ ∧ _ ∧ _ ∧ UpdateFires _ _ e'.peakSpeed e'.peakDust ↔ _
    rw [← heq]
    exact Iff.rfl
  refine ⟨by rw [← heq, ← hdust]; rfl, by rw [← heq]; rfl, by rw [← heq]; rfl, by rw [← heq]; rfl, ?_, fun hno => ?_,
    fun hyes id hid => ⟨fun hlost => ?_, fun tr htr hinv => ?_⟩⟩
  · rw [hgdu, s.sampleHeard_gdu vane lamp]
  · have hkeeps := ht.trans (State.episodeSample_keeps hgoes fun h => hno (hfires.2 h))
    obtain rfl := Mode.episode.inj ((congrArg (fun u => u.gdu.mode) hkeeps).symm.trans he)
    exact ⟨rfl, rfl, rfl, rfl, rfl, (congrArg State.tracks hkeeps).trans htracks⟩
  · have hlost := (ht.trans (State.episodeSample_updates hgoes (hfires.1 hyes))).trans
      (State.update_lost (e := e.follow _ _) hid ((State.trackOf_congr htracks _).trans hlost))
    obtain rfl := Mode.episode.inj ((congrArg (fun u => u.gdu.mode) hlost).symm.trans he)
    exact ⟨rfl, rfl, rfl, rfl, (congrArg State.tracks hlost).trans htracks⟩
  · have hupdates := ht.trans (State.episodeSample_updates hgoes (hfires.1 hyes))
    rw [hstamp] at hupdates
    obtain ⟨hrecord, hraised, hslot, hpost⟩ := sample_updated_ok (o := e.follow _ _) hinv hupdates hid htr he
    obtain ⟨-, hrecorded, -⟩ := hyes
    refine ⟨?_, ?_, ?_, ?_, ?_, hraised, hslot, hpost⟩
    · rw [hrecord]
      exact hrecorded
    all_goals rw [hrecord]; rfl

end

/-! #### The detector's statement -/

/-- Settles O29: SFE's sample, then GDU by its mode; an onset takes the JOIN or the NEW, a sample of an episode
its update. -/
theorem detectorFollows : Obligations.DetectorFollows := by
  intro vane lamp s hrst
  refine ⟨_, exec_sampleEvent hrst vane lamp, ?_⟩
  refine ⟨sample_notReady (s := s.takeEvent isSampleEvent), fun hin hwarm => ?_, fun e hm he hinv => ?_,
    fun e e' hm he => sample_episode_follows (s := s.takeEvent isSampleEvent) hm he⟩
  · have hr := ((s.takeEvent isSampleEvent).sample_ready vane lamp).2 ⟨hin, hwarm⟩
    exact ⟨sample_idle hr, sample_disarmed hr, fun hm hq => onset_record (sample_onsets hr hm hq),
      fun e hm => sample_episode_modes hr hm⟩
  · have ht := sample_onset_of_mode (s := s.takeEvent isSampleEvent) hm he
    exact ⟨onset_unreported_ok ht he, fun hr id ha => onset_joined_ok (s := s.takeEvent isSampleEvent) hinv ht he hr ha,
      fun hr ha => onset_new_ok (s := s.takeEvent isSampleEvent) hinv ht he hr ha⟩

end Sys2Proof.Machine
